-- ==== Sys2Proof/Word.lean ====
section
/-! DEFINITION. The words of the engine: fixed-width bit sequences (00_scope.md R7, R10). Element 0 of a sequence is the
most significant bit of the word that holds it (00_scope.md R13), so a word's unsigned value is `num` of R12. -/

namespace Sys2Proof

/-- The 10-bit master key, and the 10-bit sequences of the key schedule (R7). -/
abbrev Key := BitVec 10

/-- The 8-bit data block (R7). -/
abbrev Block := BitVec 8

/-- An 8-bit round subkey (R7). -/
abbrev Subkey := BitVec 8

/-- A 5-bit half-key (R7). -/
abbrev HalfKey := BitVec 5

/-- A 4-bit half-block (R7). -/
abbrev HalfBlock := BitVec 4

/-- The 19-bit command word `CMD[18:0]` (30_encoding.md R55). -/
abbrev CommandWord := BitVec 19

end Sys2Proof
end

