-- ==== Sys2Proof/Machine/Seq.lean ====
section
/-! DEFINITION. Bit sequences in words (00_scope.md R10 to R13): element access, building a sequence from its elements,
subsequences. Concatenation `s ‖ t` is `s ++ t`, position-wise exclusive OR is `s ^^^ t` (R11, R14). -/

namespace Sys2Proof.Machine

/-- `s⟨i⟩`: element i, where element 0 is the most significant bit (00_scope.md R10, R13). -/
def elem {n : Nat} (s : BitVec n) (i : Nat) : Bool := s.getMsbD i

/-- The sequence of length n whose element i is `f i` (R12: `seq_N` for elements given one by one). -/
def ofElems : (n : Nat) → (Nat → Bool) → BitVec n
  | 0, _ => 0#0
  | n + 1, f => BitVec.cons (f 0) (ofElems n (fun i => f (i + 1)))

/-- The elements of a sequence, element 0 first (R10). -/
def elems {n : Nat} (s : BitVec n) : List Bool := (List.range n).map (elem s)

/-- The subsequence of `len` elements that begins at element `a`: `s⟨a..a+len−1⟩` (R11). -/
def slice {n : Nat} (s : BitVec n) (a len : Nat) : BitVec len := ofElems len (fun i => elem s (a + i))

end Sys2Proof.Machine
end

