-- ==== Sys2Proof/Syntax.lean ====
section
/-! DEFINITION. Everything the host can write: the mode, the two commands of the opcode table, the port values at one
rising edge, and the lines of a command script. -/

namespace Sys2Proof

/-- The two-variant mode {Encrypt, Decrypt} (00_scope.md R2, R17; 30_encoding.md R57). -/
inductive Mode where
  | encrypt
  | decrypt
  deriving DecidableEq, Repr

/-- The mode bit: 0 = Encrypt, 1 = Decrypt (30_encoding.md R57). -/
def Mode.bit : Mode → Bool
  | .encrypt => false
  | .decrypt => true

/-- The mode a bit of the `mode` port selects (30_encoding.md R57). -/
def Mode.ofBit : Bool → Mode
  | false => .encrypt
  | true => .decrypt

/-- The commands of spec/opcode_table.json (30_encoding.md R58): `ENC k, b` and `DEC k, b`. -/
inductive Instr where
  /-- `ENC k, b` (45_controller.md R119) -/
  | enc (k : Key) (b : Block)
  /-- `DEC k, b` (45_controller.md R120) -/
  | dec (k : Key) (b : Block)
  deriving DecidableEq, Repr

/-- The mode a command is presented with (45_controller.md R119, R120). -/
def Instr.mode : Instr → Mode
  | .enc _ _ => .encrypt
  | .dec _ _ => .decrypt

/-- The command's key operand. -/
def Instr.key : Instr → Key
  | .enc k _ => k
  | .dec k _ => k

/-- The command's block operand. -/
def Instr.block : Instr → Block
  | .enc _ b => b
  | .dec _ b => b

/-- The values the host drives on the input ports at one rising edge of `clk` (10_state.md R21, R22). -/
structure Ports where
  rst   : Bool
  start : Bool
  mode  : Mode
  key   : Key
  din   : Block
  deriving DecidableEq, Repr

/-- An operand as a command script writes it: binary digits, element 0 first, or a value (30_encoding.md R63). -/
inductive Literal where
  | digits (ds : List Bool)
  | value (v : Nat)
  deriving DecidableEq, Repr

/-- One line of a command script, one rising edge each (30_encoding.md R63). -/
inductive Line where
  | enc (k b : Literal)
  | dec (k b : Literal)
  | nop
  | rst
  deriving DecidableEq, Repr

/-- What stands in a script: a line, `NOP n` (R63), or a pseudo-command (30_encoding.md R64). -/
inductive ScriptItem where
  | line (l : Line)
  | nops (n : Nat)
  | encrypt (k b : Literal)
  | decrypt (k b : Literal)
  | waitdone
  deriving DecidableEq, Repr

end Sys2Proof
end

