-- ==== Sys2Proof/WellFormed.lean ====
section
/-! DEFINITION. The static checks (60_exceptions.md R150 to R153). Nothing in the engine can fail at run time; what can be
ill formed is a constant table of the design and an operand of a script. A failing one is refused by name before anything
is computed with it: never truncated, padded or wrapped (R153). -/

namespace Sys2Proof

/-- The source's two errors, both static (60_exceptions.md R151, R152). -/
inductive StaticError where
  /-- `E_INDEX_OUT_OF_RANGE` (R151): a permutation table entry references a position outside the input. -/
  | indexOutOfRange
  /-- `E_INVALID_LENGTH` (R152): a sequence does not have the fixed width its place expects. -/
  | invalidLength
  deriving DecidableEq, Repr

/-- The check of a permutation table with `l` entries over an `n`-bit input (60_exceptions.md R151, R152). -/
def checkPerm (n l : Nat) (entries : List Nat) : Except StaticError Unit :=
  if entries.length ≠ l then .error .invalidLength
  else if entries.all (fun e => decide (e < n)) then .ok ()
  else .error .indexOutOfRange

/-- The check of an S-box: four rows of four entries, each an integer 0 to 3 (43_sbox.md R95 to R97, R99). An entry above 3
does not fit the 2-bit output and counts as a wrong width. DEDUCED from R152 (log 10). -/
def checkSBox (rows : List (List Nat)) : Except StaticError Unit :=
  if rows.length = 4 ∧ rows.all (fun r => decide (r.length = 4) && r.all (fun v => decide (v < 4))) then .ok ()
  else .error .invalidLength

/-- Whether a check passed. -/
def passes : Except StaticError Unit → Bool
  | .ok _ => true
  | .error _ => false

/-- A permutation table that passed its check: `l` entries, each a position of an `n`-bit input (40_permutation.md R70).
A table that fails cannot be built, so no unit can compute with it (60_exceptions.md R151, R153). -/
structure PermTable (n l : Nat) where
  entries : List Nat
  checked : passes (checkPerm n l entries) = true
  deriving DecidableEq, Repr

/-- An S-box that passed its check. -/
structure SBoxTable where
  rows : List (List Nat)
  checked : passes (checkSBox rows) = true
  deriving DecidableEq, Repr

/-- Building the table from a design's constants: the checked table, or the name of the check it fails (R151 to R153). -/
def buildPerm (n l : Nat) (entries : List Nat) : Except StaticError (PermTable n l) :=
  if h : passes (checkPerm n l entries) = true then .ok ⟨entries, h⟩
  else if entries.length ≠ l then .error .invalidLength
  else .error .indexOutOfRange

/-- Building an S-box from a design's constants. -/
def buildSBox (rows : List (List Nat)) : Except StaticError SBoxTable :=
  if h : passes (checkSBox rows) = true then .ok ⟨rows, h⟩ else .error .invalidLength

/-- Every command with operands of the ports' widths is legal (30_encoding.md R59, R60); the operands' types are those
widths, which is the check of 60_exceptions.md R152. -/
def Instr.wf : Instr → Bool
  | .enc _ _ => true
  | .dec _ _ => true

/-- An operand of width `n`: exactly `n` binary digits, or a value below `2^n` (30_encoding.md R63). -/
def Literal.wf (n : Nat) : Literal → Bool
  | .digits ds => ds.length == n
  | .value v => decide (v < 2 ^ n)

/-- A script line is well formed when its operands are (30_encoding.md R63). -/
def Line.wf : Line → Bool
  | .enc k b => k.wf 10 && b.wf 8
  | .dec k b => k.wf 10 && b.wf 8
  | .nop => true
  | .rst => true

/-- A script item is well formed when its operands are (30_encoding.md R63, R64). -/
def ScriptItem.wf : ScriptItem → Bool
  | .line l => l.wf
  | .nops _ => true
  | .encrypt k b => k.wf 10 && b.wf 8
  | .decrypt k b => k.wf 10 && b.wf 8
  | .waitdone => true

end Sys2Proof
end

