-- ==== Sys2Proof/Machine/Tables.lean ====
section
/-! DEFINITION. The eight constant tables (10_state.md R33), each with the proof of its static check: a design whose table
fails it does not compile (60_exceptions.md R151 to R153). The values are the spec's, not the textbook's
(90_conflicts.md C3; log 13). -/

namespace Sys2Proof.Machine

/-- 40_permutation.md R71. -/
def tableP10 : PermTable 10 10 := ⟨[2, 5, 7, 6, 3, 9, 0, 8, 1, 4], by decide⟩

/-- 40_permutation.md R72. -/
def tableP8 : PermTable 10 8 := ⟨[5, 8, 6, 3, 7, 9, 4, 2], by decide⟩

/-- 40_permutation.md R73. -/
def tableIP : PermTable 8 8 := ⟨[1, 5, 2, 0, 3, 7, 4, 6], by decide⟩

/-- 40_permutation.md R74. -/
def tableIPinv : PermTable 8 8 := ⟨[3, 0, 2, 4, 6, 1, 7, 5], by decide⟩

/-- 40_permutation.md R75. -/
def tableEP : PermTable 4 8 := ⟨[3, 0, 1, 2, 1, 2, 3, 0], by decide⟩

/-- 40_permutation.md R76. -/
def tableP4 : PermTable 4 4 := ⟨[1, 3, 2, 0], by decide⟩

/-- 43_sbox.md R96. -/
def tableS0 : SBoxTable := ⟨[[1, 0, 3, 2], [3, 2, 1, 0], [0, 2, 1, 3], [3, 1, 3, 2]], by decide⟩

/-- 43_sbox.md R97. -/
def tableS1 : SBoxTable := ⟨[[0, 1, 2, 3], [2, 0, 1, 3], [3, 0, 1, 0], [2, 1, 0, 3]], by decide⟩

end Sys2Proof.Machine
end

