-- ==== Sys2Proof/Machine/Permutation.lean ====
section
/-! DEFINITION. The bit-permutation unit (40_permutation.md). -/

namespace Sys2Proof.Machine

/-- `PERM(s, T)`: `out⟨i⟩ = s⟨T[i]⟩`, as many elements as the table has entries (40_permutation.md R70). -/
def perm {n l : Nat} (s : BitVec n) (T : PermTable n l) : BitVec l :=
  ofElems l (fun i => elem s (T.entries.getD i 0))

/-- The key permutation (R71). -/
def p10 (k : Key) : Key := perm k tableP10

/-- The subkey selection (R72). -/
def p8 (h : BitVec 10) : Subkey := perm h tableP8

/-- The initial permutation (R73). -/
def ip (b : Block) : Block := perm b tableIP

/-- The inverse initial permutation (R74). -/
def ipInv (p : Block) : Block := perm p tableIPinv

/-- The expansion (R75). -/
def ep (r : HalfBlock) : BitVec 8 := perm r tableEP

/-- The round-output permutation (R76). -/
def p4 (q : BitVec 4) : HalfBlock := perm q tableP4

end Sys2Proof.Machine
end

