-- ==== Sys2Proof/Machine/SBox.lean ====
section
/-! DEFINITION. The dual S-box lookup (43_sbox.md). -/

namespace Sys2Proof.Machine

/-- A bit as an integer. -/
def bitNat (b : Bool) : Nat := if b then 1 else 0

/-- `row = (b0 << 1) | b3` (43_sbox.md R95). -/
def sboxRow (b : BitVec 4) : Nat := (bitNat (elem b 0) <<< 1) ||| bitNat (elem b 3)

/-- `col = (b1 << 1) | b2` (R95). -/
def sboxCol (b : BitVec 4) : Nat := (bitNat (elem b 1) <<< 1) ||| bitNat (elem b 2)

/-- `SBOX(b, S)`: entry `col` of inner list `row`, as 2 bits, most significant first (R95; orientation: decision D23,
log 13). -/
def sbox (b : BitVec 4) (S : SBoxTable) : BitVec 2 :=
  BitVec.ofNat 2 ((S.rows.getD (sboxRow b) []).getD (sboxCol b) 0)

/-- The left S-box (R96). -/
def sbox0 (b : BitVec 4) : BitVec 2 := sbox b tableS0

/-- The right S-box (R97). -/
def sbox1 (b : BitVec 4) : BitVec 2 := sbox b tableS1

end Sys2Proof.Machine
end

