-- ==== Sys2Proof/Machine/Feistel.lean ====
section
/-! DEFINITION. The Feistel round datapath (44_feistel.md), stage by stage. -/

namespace Sys2Proof.Machine

/-- Stage 2, subkey mixing: `x = e ⊕ sk` (44_feistel.md R107). -/
def mixSubkey (e : BitVec 8) (sk : Subkey) : BitVec 8 := e ^^^ sk

/-- Stage 3, the S-box pair: S0 on the left half, S1 on the right half, S0's result first (R108). -/
def sboxPair (x : BitVec 8) : BitVec 4 := sbox0 (slice x 0 4) ++ sbox1 (slice x 4 4)

/-- `FK(r, sk)`: expand (R106), mix (R107), substitute (R108), permute (R109) (44_feistel.md R105). -/
def fk (r : HalfBlock) (sk : Subkey) : HalfBlock := p4 (sboxPair (mixSubkey (ep r) sk))

end Sys2Proof.Machine
end

