-- ==== Sys2Proof/Machine/Shift.lean ====
section
/-! DEFINITION. The circular-shift unit (41_shift.md). -/

namespace Sys2Proof.Machine

/-- `ROTL(s, S)`: `out⟨i⟩ = s⟨(i + S) mod N⟩` (41_shift.md R80; the amount is taken modulo N, 90_conflicts.md C5). -/
def rotl {n : Nat} (s : BitVec n) (S : Nat) : BitVec n := ofElems n (fun i => elem s ((i + S) % n))

/-- A half-key rotated left by 1 (R81). -/
def rotl1 (h : HalfKey) : HalfKey := rotl h 1

/-- A half-key rotated left by 2 (R82). -/
def rotl2 (h : HalfKey) : HalfKey := rotl h 2

end Sys2Proof.Machine
end

