-- ==== Sys2Proof/Machine/KeySchedule.lean ====
section
/-! DEFINITION. The key schedule (42_key_schedule.md R85). -/

namespace Sys2Proof.Machine

/-- Steps 1 to 3, left: the left half of the permuted key rotated by 1 (R85). -/
def halfKeyL1 (k : Key) : HalfKey := rotl1 (slice (p10 k) 0 5)

/-- Steps 1 to 3, right (R85). -/
def halfKeyR1 (k : Key) : HalfKey := rotl1 (slice (p10 k) 5 5)

/-- Steps 4 and 6: a subkey is P8 of the two rotated half-keys, left first (R85). -/
def subkeyOf (l r : HalfKey) : Subkey := p8 (l ++ r)

/-- `KEYSCHED(k) = (K1, K2)`: the second rotation is applied on top of the first (R85). -/
def keySched (k : Key) : Subkey × Subkey :=
  let l1 := halfKeyL1 k
  let r1 := halfKeyR1 k
  let l3 := rotl2 l1
  let r3 := rotl2 r1
  (subkeyOf l1 r1, subkeyOf l3 r3)

end Sys2Proof.Machine
end

