-- ==== Sys2Proof/Machine/Cipher.lean ====
section
/-! DEFINITION. The whole cipher as a function (45_controller.md section 1). -/

namespace Sys2Proof.Machine

/-- The first round's subkey (45_controller.md R116). -/
def firstSubkey (m : Mode) (k1 k2 : Subkey) : Subkey :=
  match m with
  | .encrypt => k1
  | .decrypt => k2

/-- The second round's subkey (R116). -/
def secondSubkey (m : Mode) (k1 k2 : Subkey) : Subkey :=
  match m with
  | .encrypt => k2
  | .decrypt => k1

/-- Round 1 and the swap: `(L1, R1) = (R0, L0 ⊕ FK(R0, SKa))` (R117). -/
def round1 (h : HalfBlock × HalfBlock) (ska : Subkey) : HalfBlock × HalfBlock := (h.2, h.1 ^^^ fk h.2 ska)

/-- Round 2, no swap: `(L2, R1)` with `L2 = L1 ⊕ FK(R1, SKb)` (R118). -/
def round2 (h : HalfBlock × HalfBlock) (skb : Subkey) : HalfBlock × HalfBlock := (h.1 ^^^ fk h.2 skb, h.2)

/-- Steps 3 and 4: IP and the split into halves (R115). -/
def splitIP (b : Block) : HalfBlock × HalfBlock :=
  let t := ip b
  (slice t 0 4, slice t 4 4)

/-- Step 7: IP⁻¹ of the halves, left first (R115). -/
def joinIPinv (h : HalfBlock × HalfBlock) : Block := ipInv (h.1 ++ h.2)

/-- `SDES(b, k, mode)` (R115). -/
def sdes (b : Block) (k : Key) (m : Mode) : Block :=
  let ks := keySched k
  let h0 := splitIP b
  let h1 := round1 h0 (firstSubkey m ks.1 ks.2)
  let h2 := round2 h1 (secondSubkey m ks.1 ks.2)
  joinIPinv h2

end Sys2Proof.Machine
end

