-- ==== Sys2Proof/Machine/State.lean ====
section
/-! DEFINITION. The state of the engine: the registers of 10_state.md R24, all of them and no other storage, with the
host's coming inputs beside them; the reasons a step can stop; the state after reset. -/

namespace Sys2Proof.Machine

/-- The values of the register `STATE[2:0]` (10_state.md R25; 30_encoding.md R61), the unused code 7 among them
(30_encoding.md R62). -/
inductive CtrlState where
  | idle
  | ks1
  | ks2
  | ips
  | rnd1
  | rnd2
  | fin
  /-- Code 7: unused; only an engine that has not been reset can hold it (R62). -/
  | unused7
  deriving DecidableEq, Repr

/-- The code of a controller state (30_encoding.md R61). -/
def CtrlState.code : CtrlState → BitVec 3
  | .idle => 0
  | .ks1 => 1
  | .ks2 => 2
  | .ips => 3
  | .rnd1 => 4
  | .rnd2 => 5
  | .fin => 6
  | .unused7 => 7

/-- The engine's registers (10_state.md R24), and what the host will drive. -/
structure State where
  /-- `STATE`: the controller state. -/
  ctrl   : CtrlState
  /-- `MODE_R`: mode of the current command. -/
  modeR  : Mode
  /-- `KEY_R`: master key of the current command. -/
  keyR   : Key
  /-- `DIN_R`: input block of the current command. -/
  dinR   : Block
  /-- `KL`: the left circular-shift register (10_state.md R26). -/
  kl     : HalfKey
  /-- `KR`: the right circular-shift register (R26). -/
  kr     : HalfKey
  /-- `K1_R`: subkey K1. -/
  k1R    : Subkey
  /-- `K2_R`: subkey K2. -/
  k2R    : Subkey
  /-- `L_R`: left half-block. -/
  lR     : HalfBlock
  /-- `R_R`: right half-block. -/
  rR     : HalfBlock
  /-- `DOUT_R`: result block (R28). -/
  doutR  : Block
  /-- `DONE_R`: result-valid flag (R27). -/
  doneR  : Bool
  /-- The MODEL's own field: what the host drives at the coming rising edges, the next edge first (log 1). -/
  script : List Ports
  deriving DecidableEq, Repr

/-- Why the engine stops with a fault: there is no reason. The engine raises no exception, trap or error signal for any
input (60_exceptions.md R150), so the type has no constructor and no step can fault (log 14; safe: nothing is left out). -/
inductive Fault where
  deriving DecidableEq, Repr

/-- Why a command has no meaning. -/
inductive Refusal where
  /-- Raised by `exec` alone, for an opcode row without a meaning; no row is without one. Safe. -/
  | notModelled (mnemonic : String)
  deriving DecidableEq, Repr

/-- The engine right after a reset edge (10_state.md R34): `STATE = IDLE`, `DONE_R = 0`, `DOUT_R = 0x00`. The spec leaves
the hidden registers unspecified there; zero is this model's DESIGN CHOICE (log 3, unsafe). No input is placed. -/
def State.reset : State where
  ctrl := .idle
  modeR := .encrypt
  keyR := 0
  dinR := 0
  kl := 0
  kr := 0
  k1R := 0
  k2R := 0
  lR := 0
  rR := 0
  doutR := 0x00
  doneR := false
  script := []

end Sys2Proof.Machine
end

