-- ==== Sys2Proof/Machine/Flags.lean ====
section
/-! DEFINITION. The one flag and the output ports. There is no carry, zero, overflow or condition flag (10_state.md R27). -/

namespace Sys2Proof.Machine

/-- Set in FIN (10_state.md R27). -/
def State.setDone (s : State) : State := { s with doneR := true }

/-- Cleared at an accepting edge and at reset (R27). -/
def State.clearDone (s : State) : State := { s with doneR := false }

/-- The port `dout` (10_state.md R23). -/
def State.dout (s : State) : Block := s.doutR

/-- The port `done` (R23). -/
def State.done (s : State) : Bool := s.doneR

/-- The port `busy`: `STATE ≠ IDLE` (R23), so 1 while `STATE` is the unused code 7 (45_controller.md R134). -/
def State.busy (s : State) : Bool := decide (s.ctrl ≠ .idle)

/-- What the host reads: functions of registers only; reading changes nothing (R23; 20_memory.md R46). -/
structure Outputs where
  dout : Block
  done : Bool
  busy : Bool
  deriving DecidableEq, Repr

/-- The output ports of a state (R23). -/
def State.outputs (s : State) : Outputs := { dout := s.dout, done := s.done, busy := s.busy }

end Sys2Proof.Machine
end

