-- ==== Sys2Proof/Config.lean ====
section
/-! DEFINITION. The parameters the hardware fixes (00_scope.md R7, R8, R9). The spec leaves no result of a command open,
so there is no free value here. -/

namespace Sys2Proof.Config

/-- Rising edges from the accepting edge to the edge that sets `done` (R9; 70_reset_and_hazards.md R182). -/
def latency : Nat := 6

/-- Fewest rising edges from one accepting edge to the next (R9; R182). -/
def spacing : Nat := 7

/-- Bits of a command word (30_encoding.md R55). -/
def commandBits : Nat := 19

end Sys2Proof.Config
end

