-- ==== Sys2Proof/Decode.lean ====
section
/-! DEFINITION. The command word and its two readings (30_encoding.md R55 to R60; spec/opcode_table.json), and the encoder
written from the same fields. -/

namespace Sys2Proof

/-- `CMD[18]`, the field `m` (30_encoding.md R56). -/
def modeField (w : CommandWord) : Bool := w.getLsbD 18

/-- `CMD[17:8]`, the field `k` (R56). -/
def keyField (w : CommandWord) : Key := w.extractLsb' 8 10

/-- `CMD[7:0]`, the field `b` (R56). -/
def blockField (w : CommandWord) : Block := w.extractLsb' 0 8

/-- The command a word names (30_encoding.md R58): told apart by `CMD[18]` alone, operands taken as they stand (R59). Every
word is legal (R60). -/
def decode (w : CommandWord) : Instr :=
  match Mode.ofBit (modeField w) with
  | .encrypt => .enc (keyField w) (blockField w)
  | .decrypt => .dec (keyField w) (blockField w)

/-- `CMD = mode ‖ key[9:0] ‖ din[7:0]` (30_encoding.md R55). -/
def commandWord (m : Mode) (k : Key) (b : Block) : CommandWord := BitVec.ofBool m.bit ++ k ++ b

/-- The word of a command (opcode_table.json: `0kkkkkkkkkkbbbbbbbb`, `1kkkkkkkkkkbbbbbbbb`). -/
def encode : Instr → CommandWord
  | .enc k b => commandWord .encrypt k b
  | .dec k b => commandWord .decrypt k b

/-- Why a number is no command word. -/
inductive DecodeError where
  /-- It has a bit above bit 18; a command word has 19 bits (30_encoding.md R55). -/
  | notACommandWord
  deriving DecidableEq, Repr

/-- Decoding of any number: it is a 19-bit command word, or it is rejected by name (log 8). -/
def decodeNat (w : Nat) : Except DecodeError Instr :=
  if w < 2 ^ Config.commandBits then .ok (decode (BitVec.ofNat 19 w)) else .error .notACommandWord

/-- The command read from the low `nbits` bits of `w`, numbered as spec/opcode_table.json numbers them (bit 0 the least
significant); none where they are no command word. The spec has one length, 19 bits, and gives no shorter reading: where
`nbits` is below 19 (0 among them) the bits above `nbits` are read as 0 and the word is accepted. DESIGN CHOICE (log 8). -/
def decodeTableWord (nbits w : Nat) : Option Instr :=
  match decodeNat (w % 2 ^ nbits) with
  | .ok i => some i
  | .error _ => none

end Sys2Proof
end

