-- ==== Sys2Proof/Machine/Operands.lean ====
section
/-! DEFINITION. How operands reach the engine: the port values at one edge, the command word they form, and the host's
coming inputs that State holds. -/

namespace Sys2Proof.Machine

/-- The command word the ports show (30_encoding.md R55). -/
def presentedWord (p : Ports) : CommandWord := commandWord p.mode p.key p.din

/-- The ports at an edge that presents a command: `rst = 0`, `start = 1`, the command's mode, key and block
(30_encoding.md R63). -/
def presenting (m : Mode) (k : Key) (b : Block) : Ports :=
  { rst := false, start := true, mode := m, key := k, din := b }

/-- The ports at an edge with no request. R63 lets `mode`, `key` and `din` be anything; zero is a DESIGN CHOICE (log 11). -/
def noRequest : Ports := { rst := false, start := false, mode := .encrypt, key := 0, din := 0 }

/-- The ports at an edge with reset asserted; the other inputs are free in R63 (log 11). -/
def assertReset : Ports := { rst := true, start := false, mode := .encrypt, key := 0, din := 0 }

/-- What the host drives at the next edge. When State holds no more inputs the host requests nothing: DESIGN CHOICE (log 2). -/
def State.portsNow (s : State) : Ports := s.script.headD noRequest

/-- The state with the next edge's inputs taken. -/
def State.dropEdge (s : State) : State := { s with script := s.script.tail }

/-- The state with port values placed before the edges that were coming. -/
def State.present (s : State) (ps : List Ports) : State := { s with script := ps ++ s.script }

end Sys2Proof.Machine
end

