-- ==== Sys2Proof/Machine/Ops.lean ====
section
/-! DEFINITION. The clocked controller (45_controller.md section 3; 70_reset_and_hazards.md R170), one operation per rule.
A register a rule does not name keeps its value (R121); every right-hand side reads values from before the edge
(00_scope.md R15). The engine takes no exception and returns from none (60_exceptions.md R150, R156, R157): the nearest
thing is the reset step. -/

namespace Sys2Proof.Machine

/-- The reset step, from any controller state (70_reset_and_hazards.md R170). The hidden registers keep what they held. -/
def State.resetStep (s : State) : State := { s.clearDone with ctrl := .idle, doutR := 0x00 }

/-- IDLE, `start = 1`: accept (45_controller.md R122). -/
def State.accept (s : State) (m : Mode) (k : Key) (b : Block) : State :=
  { s.clearDone with modeR := m, keyR := k, dinR := b, ctrl := .ks1 }

/-- KS1: P10, split, rotate by 1, P8 to K1 (R123). -/
def State.stepKS1 (s : State) : State :=
  let l1 := halfKeyL1 s.keyR
  let r1 := halfKeyR1 s.keyR
  { s with kl := l1, kr := r1, k1R := subkeyOf l1 r1, ctrl := .ks2 }

/-- KS2: the shift registers rotate in place by 2 more, P8 to K2 (R124). -/
def State.stepKS2 (s : State) : State :=
  let l3 := rotl2 s.kl
  let r3 := rotl2 s.kr
  { s with kl := l3, kr := r3, k2R := subkeyOf l3 r3, ctrl := .ips }

/-- IPS: IP and the split (R125). -/
def State.stepIPS (s : State) : State :=
  let h := splitIP s.dinR
  { s with lR := h.1, rR := h.2, ctrl := .rnd1 }

/-- RND1: round 1 and the swap (R126). -/
def State.stepRND1 (s : State) : State :=
  let h := round1 (s.lR, s.rR) (firstSubkey s.modeR s.k1R s.k2R)
  { s with lR := h.1, rR := h.2, ctrl := .rnd2 }

/-- RND2: round 2, no swap; `R_R` is not written (R127). -/
def State.stepRND2 (s : State) : State :=
  { s with lR := (round2 (s.lR, s.rR) (secondSubkey s.modeR s.k1R s.k2R)).1, ctrl := .fin }

/-- FIN: IP⁻¹ and the result (R128). -/
def State.stepFIN (s : State) : State :=
  { s.setDone with doutR := joinIPinv (s.lR, s.rR), ctrl := .idle }

/-- The unused code 7: to IDLE, no other register changes (R134). -/
def State.stepUnused7 (s : State) : State := { s with ctrl := .idle }

/-- The controller step at one rising edge (R121): reset first; else the rule that matches `STATE` and, in IDLE, `start`
(IDLE with `start = 0` holds, R129). Outside IDLE the ports but `rst` are not read (R130). -/
def edge (p : Ports) (s : State) : State :=
  if p.rst then s.resetStep
  else
    match s.ctrl with
    | .idle => if p.start then s.accept p.mode p.key p.din else s
    | .ks1 => s.stepKS1
    | .ks2 => s.stepKS2
    | .ips => s.stepIPS
    | .rnd1 => s.stepRND1
    | .rnd2 => s.stepRND2
    | .fin => s.stepFIN
    | .unused7 => s.stepUnused7

/-- The registers after a whole command, from the accepting edge to the edge that leaves FIN, taken as one atomic step
(45_controller.md R131 allows this form; the machine's own step is `edge`). -/
def State.afterCommand (s : State) (m : Mode) (k : Key) (b : Block) : State :=
  let ks := keySched k
  let h1 := round1 (splitIP b) (firstSubkey m ks.1 ks.2)
  let h2 := round2 h1 (secondSubkey m ks.1 ks.2)
  { s with
    ctrl := .idle, modeR := m, keyR := k, dinR := b,
    kl := rotl2 (halfKeyL1 k), kr := rotl2 (halfKeyR1 k), k1R := ks.1, k2R := ks.2,
    lR := h2.1, rR := h2.2, doutR := sdes b k m, doneR := true }

end Sys2Proof.Machine
end

