-- ==== Sys2Proof/Machine/Command.lean ====
section
/-! DEFINITION. The two commands (45_controller.md section 2). A command is presented at one rising edge, with `rst = 0`,
`start = 1` and its mode, key and block on the ports. In IDLE that edge accepts it and the controller runs it over the next
six edges; while busy it is ignored and the controller goes on (R130). -/

namespace Sys2Proof.Machine

/-- `ENC k, b` (45_controller.md R119). -/
def execEnc (k : Key) (b : Block) (s : State) : Host.Outcome State Fault Refusal :=
  .next (edge (presenting .encrypt k b) s)

/-- `DEC k, b` (45_controller.md R120). -/
def execDec (k : Key) (b : Block) (s : State) : Host.Outcome State Fault Refusal :=
  .next (edge (presenting .decrypt k b) s)

end Sys2Proof.Machine
end

