-- ==== Sys2Proof/Machine/Dispatch.lean ====
section
/-! DEFINITION. One arm per command of spec/opcode_table.json. -/

namespace Sys2Proof.Machine

def exec (i : Instr) (s : State) : Host.Outcome State Fault Refusal :=
  match i with
  | .enc k b => Sys2Proof.Machine.execEnc k b s
  | .dec k b => Sys2Proof.Machine.execDec k b s

end Sys2Proof.Machine
end

