-- ==== Sys2Proof/Machine/Edge.lean ====
section
/-! DEFINITION. One rising edge of `clk` with given port values, as an outcome: the ports' command word is decoded and
executed when the edge presents a command; otherwise the edge only advances the controller. -/

namespace Sys2Proof.Machine

/-- Whether an edge presents a command: `start = 1` and no reset, which has priority (70_reset_and_hazards.md R171). -/
def presents (p : Ports) : Bool := p.start && !p.rst

/-- One rising edge (45_controller.md R121). -/
def clockEdge (p : Ports) (s : State) : Host.Outcome State Fault Refusal :=
  if presents p then exec (decode (presentedWord p)) s else .next (edge p s)

/-- The ports at the edge that presents the command word in the low `nbits` bits of `w`; none where those bits are no
command word (log 7, log 8). -/
def portsOfWord (nbits w : Nat) : List Ports :=
  match decodeTableWord nbits w with
  | some i => [presenting i.mode i.key i.block]
  | none => []

end Sys2Proof.Machine
end

