-- ==== Sys2Proof/Machine/Step.lean ====
section
/-! DEFINITION. The step: one rising edge of `clk` with the host's next inputs. There is no program counter and no
instruction fetch (10_state.md R30); a command stands on the ports at one edge. -/

namespace Sys2Proof.Machine

/-- One rising edge with the inputs State holds for it (45_controller.md R121). -/
def step (s : State) : Host.Outcome State Fault Refusal := clockEdge s.portsNow s.dropEdge

/-- The state whose next edge presents the command word in the low `nbits` bits of `w`; everything else is as before, and
the edges that were coming follow it (log 7). -/
def State.withFetchWord (s : State) (nbits w : Nat) : State := s.present (portsOfWord nbits w)

end Sys2Proof.Machine
end

