-- ==== Sys2Proof/Machine/Script.lean ====
section
/-! DEFINITION. Command scripts: the host's own notation, one line per rising edge (30_encoding.md R63), and its
pseudo-commands (R64). The engine knows only the port values a line stands for. -/

namespace Sys2Proof.Machine

/-- The operand of width `n` a literal writes, or `E_INVALID_LENGTH` (30_encoding.md R63; 60_exceptions.md R152, R153;
log 17). -/
def resolve (n : Nat) : Literal → Except StaticError (BitVec n)
  | .digits ds => if ds.length = n then .ok (ofElems n (fun i => ds.getD i false)) else .error .invalidLength
  | .value v => if v < 2 ^ n then .ok (BitVec.ofNat n v) else .error .invalidLength

/-- The ports at the edge of an `ENC` or `DEC` line (R63). -/
def commandPorts (m : Mode) (k b : Literal) : Except StaticError Ports :=
  match resolve 10 k, resolve 8 b with
  | .ok key, .ok din => .ok (presenting m key din)
  | .error e, _ => .error e
  | _, .error e => .error e

/-- Port values a line may stand for, with the inputs R63 leaves free at one chosen value (log 11). -/
def linePorts : Line → Except StaticError Ports
  | .enc k b => commandPorts .encrypt k b
  | .dec k b => commandPorts .decrypt k b
  | .nop => .ok noRequest
  | .rst => .ok assertReset

/-- Whether port values are among those a line stands for: R63's table, with `any` admitting every value. -/
def lineAdmits (l : Line) (p : Ports) : Bool :=
  match l, linePorts l with
  | .nop, _ => !p.rst && !p.start
  | .rst, _ => p.rst
  | .enc _ _, .ok q => decide (p = q)
  | .dec _ _, .ok q => decide (p = q)
  | .enc _ _, .error _ => false
  | .dec _ _, .error _ => false

/-- Why a script does not run to its end. -/
inductive ScriptError where
  /-- An operand fails its check; no edge of the line is driven. -/
  | malformed (e : StaticError)
  /-- `WAITDONE` saw no `done = 1` within the bound it was given (log 12). -/
  | waitTimeout
  /-- The engine stopped; it never does (60_exceptions.md R150). -/
  | stopped
  deriving DecidableEq, Repr

/-- One rising edge with the given ports, before the edges that were coming. -/
def driveEdge (p : Ports) (s : State) : Except ScriptError State :=
  match step (s.present [p]) with
  | .next t => .ok t
  | .fault _ => .error .stopped
  | .refused _ => .error .stopped

/-- One rising edge per element. -/
def driveEdges : List Ports → State → Except ScriptError State
  | [], s => .ok s
  | p :: ps, s =>
    match driveEdge p s with
    | .ok t => driveEdges ps t
    | .error e => .error e

/-- One line of a script (R63). -/
def runLine (l : Line) (s : State) : Except ScriptError State :=
  match linePorts l with
  | .ok p => driveEdge p s
  | .error e => .error (.malformed e)

/-- `NOP n`: n lines `NOP` (R63). -/
def runNops (n : Nat) (s : State) : Except ScriptError State := driveEdges (List.replicate n noRequest) s

/-- `WAITDONE`: `NOP` repeated until `done = 1` after an edge, at most `bound` lines (R64; log 12). -/
def waitDone : Nat → State → Except ScriptError State
  | 0, _ => .error .waitTimeout
  | bound + 1, s =>
    match driveEdge noRequest s with
    | .ok t => if t.done then .ok t else waitDone bound t
    | .error e => .error e

/-- A line and the `NOP 6` that follows it in `ENCRYPT` and `DECRYPT` (R64). -/
def runCommandLine (l : Line) (s : State) : Except ScriptError State :=
  match runLine l s with
  | .ok t => runNops 6 t
  | .error e => .error e

/-- One item of a script (R63, R64); `bound` is `WAITDONE`'s. -/
def runItem (bound : Nat) : ScriptItem → State → Except ScriptError State
  | .line l, s => runLine l s
  | .nops n, s => runNops n s
  | .encrypt k b, s => runCommandLine (.enc k b) s
  | .decrypt k b, s => runCommandLine (.dec k b) s
  | .waitdone, s => waitDone bound s

/-- A script, item by item. -/
def runScript (bound : Nat) : List ScriptItem → State → Except ScriptError State
  | [], s => .ok s
  | i :: is, s =>
    match runItem bound i s with
    | .ok t => runScript bound is t
    | .error e => .error e

end Sys2Proof.Machine
end

