-- ==== Sys2Proof/Safety.lean ====
section
/-! DEFINITION. The terms claims are stated in: runs of the machine, what the host does in them, and the invariant of the
controller. -/

namespace Sys2Proof.Machine

/-- `n` rising edges of the machine. -/
def run (n : Nat) (s : State) : Host.Outcome State Fault Refusal := Host.Core.run Sys2Proof.core n s

/-- The host does not assert `rst` at the next `n` edges. -/
abbrev noReset (n : Nat) (s : State) : Prop := ∀ p ∈ s.script.take n, p.rst = false

/-- The host asserts neither `rst` nor `start` at the next `n` edges. -/
abbrev quiet (n : Nat) (s : State) : Prop := ∀ p ∈ s.script.take n, p.rst = false ∧ p.start = false

/-- The host asserts `start`, and no reset, at each of the next `n` edges. -/
abbrev startHeld (n : Nat) (s : State) : Prop :=
  n ≤ s.script.length ∧ ∀ p ∈ s.script.take n, p.rst = false ∧ p.start = true

/-- What the datapath registers hold in each controller state, of the command in `MODE_R`, `KEY_R` and `DIN_R`
(45_controller.md R122 to R128). In IDLE a raised `done` means that `DOUT_R` is that command's result. -/
def Datapath (s : State) : Prop :=
  match s.ctrl with
  | .idle => s.doneR = true → s.doutR = sdes s.dinR s.keyR s.modeR
  | .ks1 => True
  | .ks2 => s.kl = halfKeyL1 s.keyR ∧ s.kr = halfKeyR1 s.keyR ∧ s.k1R = (keySched s.keyR).1
  | .ips => s.k1R = (keySched s.keyR).1 ∧ s.k2R = (keySched s.keyR).2
  | .rnd1 => s.k1R = (keySched s.keyR).1 ∧ s.k2R = (keySched s.keyR).2 ∧ (s.lR, s.rR) = splitIP s.dinR
  | .rnd2 =>
    s.k1R = (keySched s.keyR).1 ∧ s.k2R = (keySched s.keyR).2 ∧
    (s.lR, s.rR) = round1 (splitIP s.dinR) (firstSubkey s.modeR s.k1R s.k2R)
  | .fin => joinIPinv (s.lR, s.rR) = sdes s.dinR s.keyR s.modeR
  | .unused7 => False

/-- The controller's invariant: `STATE` is one of the seven states, `done` is 0 while a command runs, and the datapath
holds what the controller state says. -/
def ControllerInv (s : State) : Prop :=
  s.ctrl ≠ .unused7 ∧ (s.busy = true → s.done = false) ∧ Datapath s

end Sys2Proof.Machine
end

