-- ==== Sys2Proof/Certificates/Slice0/Obligations.lean ====
section
/-! DEFINITION. The statements for the provers. Each says, in its docstring, which rules of spec/ it formalises. A statement
about every state holds whatever the hidden registers hold; none rests on a value State.reset names by choice. In every
statement a clause about the field `script` is about the model's own list of coming inputs, no register of the spec (DESIGN
CHOICE, log 1), and an edge of a run past the end of that list is one at which the host requests nothing (DESIGN CHOICE,
log 2). -/

open Sys2Proof Sys2Proof.Machine

/-! ### Encoding and decoding -/

/-- The command words written out in the spec's programs P1, P2 and P5 (95_test_vectors.md section 3) name the commands the
programs say. -/
def Obligations.CommandWordsOfTheSpecDecode : Prop :=
  decode 0x28297 = .enc 0x282 0x97 ∧ decode 0x68279 = .dec 0x282 0x79 ∧ decode 0x7FF00 = .dec 0x3FF 0x00 ∧
  decode 0x00000 = .enc 0x000 0x00 ∧ decode 0x000F0 = .enc 0x000 0xF0 ∧ decode 0x45097 = .dec 0x050 0x97 ∧
  decode 0x05004 = .enc 0x050 0x04

/-- 30_encoding.md R55 to R59: the word of a command decodes to that command, every key and every block. -/
def Obligations.DecodeOfEncodeIsTheCommand : Prop :=
  ∀ i : Instr, i.wf = true → decode (encode i) = i

/-- R60: all 2^19 words are legal and each names exactly one command: it is the word of the command it decodes to and of no
other. A decoder reads a 19-bit word (its type) and nothing else. -/
def Obligations.EveryWordNamesExactlyOneCommand : Prop :=
  ∀ w : CommandWord, encode (decode w) = w ∧ ∀ i : Instr, encode i = w → i = decode w

/-- R58: `CMD[18]` alone tells ENC (match 0x00000) from DEC (match 0x40000), mask 0x40000; the patterns' `k` and `b` are bits
17 to 8 and 7 to 0. -/
def Obligations.OpcodeMapIsBit18 : Prop :=
  ∀ w : CommandWord,
    (w &&& 0x40000 = 0x00000 ∨ w &&& 0x40000 = 0x40000) ∧
    (w &&& 0x40000 = 0x00000 → decode w = .enc (w.extractLsb 17 8) (w.extractLsb 7 0)) ∧
    (w &&& 0x40000 = 0x40000 → decode w = .dec (w.extractLsb 17 8) (w.extractLsb 7 0))

/-- R56: the fields of the command word, bit by bit, and the ports they stand for. -/
def Obligations.CommandWordFieldsBitByBit : Prop :=
  (∀ w : CommandWord,
    (decode w).mode = Mode.ofBit (w.getLsbD 18) ∧
    (∀ i, i < 10 → elem (decode w).key i = w.getLsbD (17 - i)) ∧
    (∀ i, i < 8 → elem (decode w).block i = w.getLsbD (7 - i))) ∧
  (∀ p : Ports,
    (decode (presentedWord p)).mode = p.mode ∧ (decode (presentedWord p)).key = p.key ∧
    (decode (presentedWord p)).block = p.din)

/-! ### A step runs the presented command -/

/-- An edge with `rst = 0` and `start = 1` executes the command its ports' word names; the step besides takes that edge's
inputs off the list of coming inputs (the model's own field, log 1). -/
def Obligations.StepRunsThePresentedCommand : Prop :=
  ∀ (s : State) (p : Ports) (rest : List Ports),
    s.script = p :: rest → p.rst = false → p.start = true →
    step s = exec (decode (presentedWord p)) { s with script := rest }

/-- The model's own interface (log 7): the step after a command word is placed executes the command it decodes to. -/
def Obligations.StepRunsThePlacedWord : Prop :=
  ∀ (s : State) (nbits w : Nat) (i : Instr),
    decodeTableWord nbits w = some i → step (s.withFetchWord nbits w) = exec i s

/-! ### The two commands -/

/-- 45_controller.md sections 2 and 4: in IDLE, `ENC k, b` is accepted, its accepting edge writes what R122 says and
nothing else, and six edges without reset later `dout` is the encryption, `done = 1` and `busy = 0`, whatever else the
host drives. Past the end of the listed inputs the host requests nothing (log 2). -/
def Obligations.EncIsAcceptedAndGivesItsResult : Prop :=
  ∀ (s : State) (k : Key) (b : Block), s.ctrl = .idle → noReset 6 s →
    exec (.enc k b) s =
      .next { s with modeR := .encrypt, keyR := k, dinR := b, doneR := false, ctrl := .ks1 } ∧
    ∃ t u, exec (.enc k b) s = .next t ∧ run 6 t = .next u ∧
      u.ctrl = .idle ∧ u.busy = false ∧ u.done = true ∧ u.dout = sdes b k .encrypt

/-- 45_controller.md sections 2 and 4: the same for `DEC k, b`, with the decryption on `dout`. Past the end of
the listed inputs the host requests nothing (log 2). -/
def Obligations.DecIsAcceptedAndGivesItsResult : Prop :=
  ∀ (s : State) (k : Key) (b : Block), s.ctrl = .idle → noReset 6 s →
    exec (.dec k b) s =
      .next { s with modeR := .decrypt, keyR := k, dinR := b, doneR := false, ctrl := .ks1 } ∧
    ∃ t u, exec (.dec k b) s = .next t ∧ run 6 t = .next u ∧
      u.ctrl = .idle ∧ u.busy = false ∧ u.done = true ∧ u.dout = sdes b k .decrypt

/-- R130: in the six busy states `start`, `mode`, `key` and `din` are not read: the step is the same whatever they are, and
a command presented there does what an edge with no request does. That a step takes its edge off the coming inputs is the
model's own (log 1). -/
def Obligations.CommandWhileBusyIsIgnored : Prop :=
  ∀ (s : State) (p q : Ports) (i : Instr) (rest : List Ports),
    s.ctrl ≠ .idle → s.ctrl ≠ .unused7 → p.rst = false → q.rst = false →
    step { s with script := p :: rest } = step { s with script := q :: rest } ∧
    exec i s = step { s with script := q :: s.script }

/-- Part of the frame of both commands (10_state.md section 2; 45_controller.md section 3): presented in IDLE a command leaves
`KL`, `KR`, `K1_R`, `K2_R`, `L_R`, `R_R` and `DOUT_R` alone; presented elsewhere it leaves `MODE_R`, `KEY_R` and `DIN_R`
alone, and `DONE_R` too but in FIN; `DOUT_R` is written only at the edge that leaves FIN. What the controller's own work writes
in the busy states (`KL`, `KR`, `K1_R`, `K2_R`, `L_R`, `R_R`) is not said here but in RegistersAreWrittenOnlyInTheirStates,
KeyScheduleEdges and BlockEdges, through CommandWhileBusyIsIgnored. The clause that the coming inputs are untouched is about
the model's own field `script` (DESIGN CHOICE, log 1). -/
def Obligations.CommandsFrame : Prop :=
  ∀ (i : Instr) (s t : State), exec i s = .next t →
    t.script = s.script ∧
    (s.ctrl = .idle → t.kl = s.kl ∧ t.kr = s.kr ∧ t.k1R = s.k1R ∧ t.k2R = s.k2R ∧ t.lR = s.lR ∧ t.rR = s.rR ∧
      t.doutR = s.doutR) ∧
    (s.ctrl ≠ .idle → t.modeR = s.modeR ∧ t.keyR = s.keyR ∧ t.dinR = s.dinR) ∧
    (s.ctrl ≠ .fin → t.doutR = s.doutR) ∧
    (s.ctrl ≠ .fin → s.ctrl ≠ .idle → t.doneR = s.doneR)

/-- R131 (derived in the spec from R122 to R128): the transaction rule, for either mode and whatever the host drives on
`start`, `mode`, `key` and `din` at e1 to e6. After e0 to e5 the command is in progress and `dout` is the old value; after e6
every register is what the command as one atomic step leaves. The list of coming inputs that is left is the model's own field
(log 1). Past the end of
the listed inputs the host requests nothing (log 2). -/
def Obligations.TransactionRule : Prop :=
  ∀ (s : State) (p : Ports) (rest : List Ports),
    s.ctrl = .idle → s.script = p :: rest → p.rst = false → p.start = true → (∀ q ∈ rest.take 6, q.rst = false) →
    (∀ (j : Nat) (c : CtrlState),
      [CtrlState.ks1, .ks2, .ips, .rnd1, .rnd2, .fin][j]? = some c →
      ∃ u, run (j + 1) s = .next u ∧ u.ctrl = c ∧ u.done = false ∧ u.busy = true ∧ u.dout = s.dout) ∧
    run 7 s = .next { s.afterCommand p.mode p.key p.din with script := rest.drop 6 }

/-- R133 (derived in the spec): the result depends only on mode, key and block, not on or
on the coming inputs. Past the end of
the listed inputs the host requests nothing (log 2). -/
def Obligations.ResultDependsOnlyOnTheCommand : Prop :=
  ∀ (i : Instr) (s s' : State), s.ctrl = .idle → s'.ctrl = .idle → noReset 6 s → noReset 6 s' →
    ∃ t t' u u', exec i s = .next t ∧ exec i s' = .next t' ∧ run 6 t = .next u ∧ run 6 t' = .next u' ∧
      u.done = true ∧ u'.done = true ∧ u.dout = u'.dout

/-- 20_memory.md R49 (derived in the spec): commands presented seven edges apart, and no reset, give their results in the
order they are accepted, each on `dout` from the edge that leaves its FIN until the next command's. The coming inputs (the
model's own field, log 1) are these commands' edges and no more, so the six edges after the last command's result lie past
their end, where the model's host requests nothing and asserts no reset (DESIGN CHOICE, log 2): the clause of the last command
for those edges rests on that choice. -/
def Obligations.CommandsTakeEffectInOrder : Prop :=
  ∀ (blocks : List (Instr × List Ports)) (s : State),
    s.ctrl = .idle → (∀ c ∈ blocks, c.2.length = 6 ∧ ∀ p ∈ c.2, p.rst = false) →
    s.script = blocks.flatMap (fun c => presenting c.1.mode c.1.key c.1.block :: c.2) →
    ∀ (j : Nat) (c : Instr × List Ports), blocks[j]? = some c →
      (∃ u, run (7 * (j + 1)) s = .next u ∧ u.ctrl = .idle ∧ u.done = true ∧
        u.dout = sdes c.1.block c.1.key c.1.mode) ∧
      ∀ e, e < 7 → ∃ v, run (7 * (j + 1) + e) s = .next v ∧ v.dout = sdes c.1.block c.1.key c.1.mode

/-! ### The controller, edge by edge -/

/-- R122 and R129: in IDLE, `start = 1` accepts and writes the five registers named; `start = 0` changes no register. The
step besides takes the edge's inputs off the model's own list (log 1). -/
def Obligations.IdleEdges : Prop :=
  ∀ s : State, s.ctrl = .idle → s.portsNow.rst = false →
    (s.portsNow.start = true →
      step s = .next { s with
        modeR := s.portsNow.mode, keyR := s.portsNow.key, dinR := s.portsNow.din, doneR := false, ctrl := .ks1,
        script := s.script.tail }) ∧
    (s.portsNow.start = false → step s = .next { s with script := s.script.tail })

/-- R123 and R124: the two edges of the key schedule, every register. The step besides takes the edge's
inputs off the model's own list (log 1). -/
def Obligations.KeyScheduleEdges : Prop :=
  ∀ s : State, s.portsNow.rst = false →
    (s.ctrl = .ks1 →
      step s = .next { s with
        kl := rotl (slice (perm s.keyR tableP10) 0 5) 1,
        kr := rotl (slice (perm s.keyR tableP10) 5 5) 1,
        k1R := perm (rotl (slice (perm s.keyR tableP10) 0 5) 1 ++ rotl (slice (perm s.keyR tableP10) 5 5) 1) tableP8,
        ctrl := .ks2, script := s.script.tail }) ∧
    (s.ctrl = .ks2 →
      step s = .next { s with
        kl := rotl s.kl 2, kr := rotl s.kr 2, k2R := perm (rotl s.kl 2 ++ rotl s.kr 2) tableP8,
        ctrl := .ips, script := s.script.tail })

/-- R125 to R128: the initial permutation, the two rounds (a swap after the first only) and the result, every register.
The step besides takes the edge's inputs off the model's own list (log 1). -/
def Obligations.BlockEdges : Prop :=
  ∀ s : State, s.portsNow.rst = false →
    (s.ctrl = .ips →
      step s = .next { s with
        lR := slice (perm s.dinR tableIP) 0 4, rR := slice (perm s.dinR tableIP) 4 4,
        ctrl := .rnd1, script := s.script.tail }) ∧
    (s.ctrl = .rnd1 →
      step s = .next { s with
        lR := s.rR, rR := s.lR ^^^ fk s.rR (if s.modeR = .encrypt then s.k1R else s.k2R),
        ctrl := .rnd2, script := s.script.tail }) ∧
    (s.ctrl = .rnd2 →
      step s = .next { s with
        lR := s.lR ^^^ fk s.rR (if s.modeR = .encrypt then s.k2R else s.k1R),
        ctrl := .fin, script := s.script.tail }) ∧
    (s.ctrl = .fin →
      step s = .next { s with
        doutR := perm (s.lR ++ s.rR) tableIPinv, doneR := true, ctrl := .idle, script := s.script.tail })

/-- R62 and R134: no step of any state reaches the unused code 7; `busy = 1` in it; an edge with `rst = 0` leaves it for IDLE
and changes no other register, with a command presented or not. The step besides takes the edge's
inputs off the model's own list (log 1). -/
def Obligations.UnusedCodeIsLeftAndNeverReached : Prop :=
  CtrlState.unused7.code = 7 ∧
  (∀ s t : State, step s = .next t → t.ctrl ≠ .unused7) ∧
  (∀ s : State, s.ctrl = .unused7 → s.busy = true) ∧
  (∀ s : State, s.ctrl = .unused7 → s.portsNow.rst = false →
    step s = .next { s with ctrl := .idle, script := s.script.tail }) ∧
  (∀ (i : Instr) (s : State), s.ctrl = .unused7 → exec i s = .next { s with ctrl := .idle })

/-- R27: `DONE_R` is set in FIN, cleared at an accepting edge and at reset, and written by nothing else; `busy` is derived
from `STATE`. -/
def Obligations.DoneIsSetInFinAndClearedAtAcceptAndReset : Prop :=
  ∀ s t : State, step s = .next t →
    t.doneR =
      (if s.portsNow.rst = true then false
       else if s.ctrl = .fin then true
       else if s.ctrl = .idle ∧ s.portsNow.start = true then false
       else s.doneR) ∧
    (t.busy = true ↔ t.ctrl ≠ .idle)

/-- R28: `DOUT_R` is written only in FIN and at reset. -/
def Obligations.DoutIsWrittenOnlyInFinAndAtReset : Prop :=
  ∀ s t : State, step s = .next t →
    (s.portsNow.rst = true → t.dout = 0x00) ∧
    (s.portsNow.rst = false → s.ctrl = .fin → t.dout = perm (s.lR ++ s.rR) tableIPinv) ∧
    (s.portsNow.rst = false → s.ctrl ≠ .fin → t.dout = s.dout)

/-- 10_state.md section 2, the column `written in controller state` of R24's table, with R170 for reset.
The last clause, that a step takes one edge off the coming inputs, is about the model's own field `script` (DESIGN CHOICE,
log 1). -/
def Obligations.RegistersAreWrittenOnlyInTheirStates : Prop :=
  ∀ s t : State, step s = .next t →
    (t.modeR ≠ s.modeR ∨ t.keyR ≠ s.keyR ∨ t.dinR ≠ s.dinR →
      s.portsNow.rst = false ∧ s.ctrl = .idle ∧ s.portsNow.start = true) ∧
    (t.kl ≠ s.kl ∨ t.kr ≠ s.kr → s.portsNow.rst = false ∧ (s.ctrl = .ks1 ∨ s.ctrl = .ks2)) ∧
    (t.k1R ≠ s.k1R → s.portsNow.rst = false ∧ s.ctrl = .ks1) ∧
    (t.k2R ≠ s.k2R → s.portsNow.rst = false ∧ s.ctrl = .ks2) ∧
    (t.lR ≠ s.lR → s.portsNow.rst = false ∧ (s.ctrl = .ips ∨ s.ctrl = .rnd1 ∨ s.ctrl = .rnd2)) ∧
    (t.rR ≠ s.rR → s.portsNow.rst = false ∧ (s.ctrl = .ips ∨ s.ctrl = .rnd1)) ∧
    (t.doutR ≠ s.doutR → s.portsNow.rst = true ∨ s.ctrl = .fin) ∧
    (t.doneR ≠ s.doneR → s.portsNow.rst = true ∨ s.ctrl = .fin ∨ (s.ctrl = .idle ∧ s.portsNow.start = true)) ∧
    t.script = s.script.tail

/-! ### Reset -/

/-- R170 and R171: an edge with `rst = 1`, whatever `STATE` and `start` are, writes three registers and no other. The step
besides takes the edge's inputs off the model's own list (log 1). -/
def Obligations.ResetStepWinsAndWritesThreeRegisters : Prop :=
  ∀ s : State, s.portsNow.rst = true →
    ∃ t, step s = .next t ∧
      t = { s with ctrl := .idle, doneR := false, doutR := 0x00, script := s.script.tail } ∧
      t.busy = false ∧ t.done = false ∧ t.dout = 0x00

/-- R172: a reset edge in the middle of a command abandons it: no result then, and none at any later edge while the host
requests nothing. Past the end of
the listed inputs the host requests nothing (log 2). -/
def Obligations.ResetAbandonsTheCommandInFlight : Prop :=
  ∀ (s : State) (n : Nat), s.ctrl ≠ .idle → s.ctrl ≠ .unused7 → s.portsNow.rst = true →
    (∀ p ∈ s.script.tail.take n, p.rst = false ∧ p.start = false) →
    ∃ t, run (n + 1) s = .next t ∧ t.ctrl = .idle ∧ t.done = false ∧ t.dout = 0x00

/-- R173 (derived in the spec): one reset edge from any state gives `STATE`, `DONE_R` and `DOUT_R` their reset values, and a
second one changes nothing further. The step besides takes the edge's
inputs off the model's own list (log 1). -/
def Obligations.OneResetEdgeIsEnough : Prop :=
  ∀ s : State, s.portsNow.rst = true →
    ∃ t, step s = .next t ∧
      t.ctrl = State.reset.ctrl ∧ t.doneR = State.reset.doneR ∧ t.doutR = State.reset.doutR ∧
      (t.portsNow.rst = true → step t = .next { t with script := t.script.tail })

/-- 10_state.md R34, the registers it gives a value: IDLE, 0 and 0x00, so `busy = 0`, `done = 0`, `dout = 0x00`. Nothing is
said of the hidden registers, whose values are the model's choice (log 3). -/
def Obligations.ResetValues : Prop :=
  State.reset.ctrl = .idle ∧ State.reset.doneR = false ∧ State.reset.doutR = 0x00 ∧
  State.reset.outputs = { dout := 0x00, done := false, busy := false }

/-- 70_reset_and_hazards.md section 2: after one reset edge, from any register contents, a command presented at the next edge
is accepted and gives its result. Past the end of
the listed inputs the host requests nothing (log 2). -/
def Obligations.BootThenCommand : Prop :=
  ∀ (s : State) (i : Instr) (rest : List Ports) (r : Ports),
    r.rst = true → s.script = r :: presenting i.mode i.key i.block :: rest → (∀ q ∈ rest.take 6, q.rst = false) →
    ∃ u, run 8 s = .next u ∧ u.ctrl = .idle ∧ u.done = true ∧ u.dout = sdes i.block i.key i.mode

/-! ### Whole-machine rules -/

/-- 60_exceptions.md section 1: no step and no command stops the machine: there is no fault and no refusal. -/
def Obligations.NothingStopsTheMachine : Prop :=
  (∀ s : State, ∃ t, step s = .next t) ∧ (∀ (i : Instr) (s : State), ∃ t, exec i s = .next t) ∧
  (∀ (n : Nat) (s : State), ∃ t, run n s = .next t)

/-- The controller's invariant (45_controller.md section 3) is kept by every step, whatever the host drives. -/
def Obligations.EveryStepKeepsTheInvariant : Prop :=
  ∀ s t : State, ControllerInv s → step s = .next t → ControllerInv t

/-- The invariant holds after reset. -/
def Obligations.InvariantAtReset : Prop := ControllerInv State.reset

/-- In every run that starts in a state with the invariant, `done = 1` in IDLE means that `dout` is the result of the command
in `MODE_R`, `KEY_R`, `DIN_R` (70_reset_and_hazards.md section 3, R176), and `done = 1` comes with `busy = 0`. -/
def Obligations.DoneMeansTheResultIsOnDout : Prop :=
  ∀ (n : Nat) (s t : State), ControllerInv s → run n s = .next t → t.done = true →
    t.busy = false ∧ t.dout = sdes t.dinR t.keyR t.modeR

/-- 10_state.md R29 (derived in the spec): no output, at any later edge, depends on what the hidden registers held in IDLE.
Both engines are given the same coming inputs (the model's own field, log 1). Past the end of
the listed inputs the host requests nothing (log 2). -/
def Obligations.HiddenRegistersReachNoOutput : Prop :=
  ∀ (n : Nat) (s s' : State),
    s.ctrl = .idle → s'.ctrl = .idle → s.doutR = s'.doutR → s.doneR = s'.doneR → s.script = s'.script →
    ∃ t t', run n s = .next t ∧ run n s' = .next t' ∧ t.outputs = t'.outputs

/-- R129: in IDLE with `start = 0` for any number of edges every register keeps its value, so a result stays readable.
The list of coming inputs is the model's own field (log 1). Past the end of
the listed inputs the host requests nothing (log 2). -/
def Obligations.ResultStaysWhileTheHostWaits : Prop :=
  ∀ (n : Nat) (s : State), s.ctrl = .idle → quiet n s → run n s = .next { s with script := s.script.drop n }

/-- 20_memory.md R53 (derived in the spec): from every busy state of the seven, a run without reset is in IDLE with `done = 1`
within six edges. Past the end of
the listed inputs the host requests nothing (log 2). -/
def Obligations.BusyEngineFinishesWithinSixEdges : Prop :=
  ∀ s : State, s.ctrl ≠ .idle → s.ctrl ≠ .unused7 → noReset 6 s →
    ∃ n t, 1 ≤ n ∧ n ≤ Config.latency ∧ run n s = .next t ∧ t.ctrl = .idle ∧ t.done = true

/-- 70_reset_and_hazards.md R178 (derived in the spec): with `start` held high a second command is accepted at the 7th edge
after the first, none between, with the ports of that edge; the first result is on `dout` before it. -/
def Obligations.StartHeldHighAcceptsEverySevenEdges : Prop :=
  ∀ s : State, s.ctrl = .idle → startHeld 8 s →
    (∀ j, 1 ≤ j → j ≤ 6 → ∃ u, run j s = .next u ∧ u.busy = true) ∧
    ∃ u v, run Config.spacing s = .next u ∧ u.ctrl = .idle ∧ u.done = true ∧
      u.dout = sdes s.portsNow.din s.portsNow.key s.portsNow.mode ∧
      run (Config.spacing + 1) s = .next v ∧ v.ctrl = .ks1 ∧ v.done = false ∧ v.dout = u.dout ∧
      v.modeR = u.portsNow.mode ∧ v.keyR = u.portsNow.key ∧ v.dinR = u.portsNow.din

/-! ### The units -/

/-- R70: PERM of any sequence by any checked table; the rule's example. -/
def Obligations.PermTakesElementsByTheTable : Prop :=
  (∀ (n l : Nat) (s : BitVec n) (T : PermTable n l) (i : Nat), i < l →
    T.entries.length = l ∧ T.entries.getD i 0 < n ∧ elem (perm s T) i = elem s (T.entries.getD i 0)) ∧
  (∀ T : PermTable 4 4, T.entries = [1, 3, 2, 0] → perm 0b1011 T = 0b0111)

/-- R71: P10 element by element, a bijection with the inverse table the rule gives; its example. -/
def Obligations.KeyPermutationP10 : Prop :=
  (∀ k : Key, elems (p10 k) =
    [elem k 2, elem k 5, elem k 7, elem k 6, elem k 3, elem k 9, elem k 0, elem k 8, elem k 1, elem k 4]) ∧
  Function.Bijective p10 ∧
  (∀ T : PermTable 10 10, T.entries = [6, 8, 0, 4, 9, 1, 3, 2, 7, 5] → ∀ k, perm (p10 k) T = k ∧ p10 (perm k T) = k) ∧
  p10 0b1010000010 = 0b1000001100

/-- R72: P8 element by element; it never reads elements 0 and 1, so it is no bijection; its example. -/
def Obligations.SubkeySelectionP8 : Prop :=
  (∀ h : BitVec 10, elems (p8 h) =
    [elem h 5, elem h 8, elem h 6, elem h 3, elem h 7, elem h 9, elem h 4, elem h 2]) ∧
  (∀ h h' : BitVec 10, (∀ i, 2 ≤ i → i < 10 → elem h i = elem h' i) → p8 h = p8 h') ∧
  ¬ Function.Injective p8 ∧ p8 0b0000111000 = 0b10100010

/-- R73, R74 and R77: IP and IP⁻¹ element by element, inverse to one another both ways; their examples. -/
def Obligations.InitialPermutationAndItsInverse : Prop :=
  (∀ b : Block, elems (ip b) =
    [elem b 1, elem b 5, elem b 2, elem b 0, elem b 3, elem b 7, elem b 4, elem b 6]) ∧
  (∀ p : Block, elems (ipInv p) =
    [elem p 3, elem p 0, elem p 2, elem p 4, elem p 6, elem p 1, elem p 7, elem p 5]) ∧
  (∀ x : Block, ipInv (ip x) = x ∧ ip (ipInv x) = x) ∧
  Function.Bijective ip ∧ Function.Bijective ipInv ∧
  ip 0b10010111 = 0b01011101 ∧ ipInv 0b10101110 = 0b01111001

/-- R75 and R76: EP and P4 element by element; EP uses each input element exactly twice and is no bijection onto the 8-bit
sequences; P4 is a bijection; their examples. -/
def Obligations.ExpansionAndRoundPermutation : Prop :=
  (∀ r : HalfBlock, elems (ep r) =
    [elem r 3, elem r 0, elem r 1, elem r 2, elem r 1, elem r 2, elem r 3, elem r 0]) ∧
  (∀ j, j < 4 → tableEP.entries.count j = 2) ∧ ¬ Function.Surjective ep ∧
  (∀ q : BitVec 4, elems (p4 q) = [elem q 1, elem q 3, elem q 2, elem q 0]) ∧ Function.Bijective p4 ∧
  ep 0b1101 = 0b11101011 ∧ p4 0b1110 = 0b1011

/-- R80: ROTL in both forms the rule gives, its corner cases and its example. -/
def Obligations.RotlIsTheLeftRotation : Prop :=
  (∀ (n : Nat) (s : BitVec n) (S : Nat), 1 ≤ n →
    elems (rotl s S) = (elems s).drop (S % n) ++ (elems s).take (S % n) ∧
    (∀ i, i < n → elem (rotl s S) i = elem s ((i + S) % n)) ∧
    rotl s 0 = s ∧ rotl s n = s ∧ rotl s (n + 1) = rotl s 1) ∧
  rotl (0b10000 : BitVec 5) 1 = 0b00001

/-- R81 and R82: the two rotations of a half-key, element by element, their fixed points and their examples. -/
def Obligations.HalfKeyRotations : Prop :=
  (∀ h : HalfKey, elems (rotl1 h) = [elem h 1, elem h 2, elem h 3, elem h 4, elem h 0]) ∧
  (∀ h : HalfKey, elems (rotl2 h) = [elem h 2, elem h 3, elem h 4, elem h 0, elem h 1]) ∧
  rotl1 0b00000 = 0b00000 ∧ rotl1 0b11111 = 0b11111 ∧ rotl2 0b00000 = 0b00000 ∧ rotl2 0b11111 = 0b11111 ∧
  rotl1 0b01100 = 0b11000 ∧ rotl2 0b00001 = 0b00100

/-- 41_shift.md R83 (derived in the spec): rotations compose by adding amounts. -/
def Obligations.RotationsCompose : Prop :=
  (∀ (n : Nat) (s : BitVec n) (a b : Nat), rotl (rotl s a) b = rotl s (a + b)) ∧
  (∀ h : HalfKey, elems (rotl2 (rotl1 h)) = [elem h 3, elem h 4, elem h 0, elem h 1, elem h 2])

/-- 42_key_schedule.md R86 and R87 (derived in the spec): K1 and K2 as selections of key elements, and what the key
schedule's two edges, from KS1, leave in `KL`, `KR`, `K1_R`, `K2_R` for either mode. The list
of coming inputs is the model's own field (log 1). Past the end of
the listed inputs the host requests nothing (log 2). -/
def Obligations.SubkeysAreKeySelections : Prop :=
  (∀ k : Key,
    elems (keySched k).1 = [elem k 0, elem k 4, elem k 8, elem k 3, elem k 1, elem k 9, elem k 2, elem k 6] ∧
    elems (keySched k).2 = [elem k 1, elem k 0, elem k 4, elem k 5, elem k 9, elem k 8, elem k 7, elem k 2]) ∧
  (∀ s : State, s.ctrl = .ks1 → noReset 2 s →
    run 2 s = .next { s with
      kl := rotl (slice (p10 s.keyR) 0 5) 3, kr := rotl (slice (p10 s.keyR) 5 5) 3,
      k1R := (keySched s.keyR).1, k2R := (keySched s.keyR).2, ctrl := .ips, script := s.script.drop 2 })

/-- 42_key_schedule.md R88 (derived in the spec): K1 = K2 for exactly eight keys, and for those both modes compute the same
function of the block. -/
def Obligations.EqualSubkeysForExactlyEightKeys : Prop :=
  (∀ k : Key, (keySched k).1 = (keySched k).2 ↔
    k ∈ ([0b0000000000, 0b0001010000, 0b0010001100, 0b0011011100, 0b1100100011, 0b1101110011, 0b1110101111,
      0b1111111111] : List Key)) ∧
  (∀ (k : Key) (b : Block), (keySched k).1 = (keySched k).2 → sdes b k .encrypt = sdes b k .decrypt)

/-- R95: the lookup in any checked S-box: outer elements pick the row, inner ones the column, the entry comes out most
significant bit first; its example. -/
def Obligations.SboxLooksUpRowAndColumn : Prop :=
  (∀ (b : BitVec 4) (S : SBoxTable),
    ∃ r v, S.rows[2 * bitNat (elem b 0) + bitNat (elem b 3)]? = some r ∧
      r[2 * bitNat (elem b 1) + bitNat (elem b 2)]? = some v ∧ v < 4 ∧
      elem (sbox b S) 0 = decide (v / 2 = 1) ∧ elem (sbox b S) 1 = decide (v % 2 = 1)) ∧
  sbox0 0b0100 = 0b11

/-- R96, R97 and the counts of R99: the two tables, and how many of the sixteen inputs reach each output value. -/
def Obligations.SboxTablesAndTheirCounts : Prop :=
  tableS0.rows = [[1, 0, 3, 2], [3, 2, 1, 0], [0, 2, 1, 3], [3, 1, 3, 2]] ∧
  tableS1.rows = [[0, 1, 2, 3], [2, 0, 1, 3], [3, 0, 1, 0], [2, 1, 0, 3]] ∧
  sbox0 0b0000 = 0b01 ∧ sbox1 0b0001 = 0b10 ∧
  [0, 1, 2, 3].map (fun v => ((List.range 16).map (fun n => sbox0 (BitVec.ofNat 4 n))).count v) = [3, 4, 4, 5] ∧
  [0, 1, 2, 3].map (fun v => ((List.range 16).map (fun n => sbox1 (BitVec.ofNat 4 n))).count v) = [5, 4, 3, 4]

/-- R105 to R109: the round function stage by stage, element by element; the rules' examples. -/
def Obligations.RoundFunctionStages : Prop :=
  (∀ (r : HalfBlock) (sk : Subkey),
    (∀ i, i < 8 → elem (mixSubkey (ep r) sk) i = (elem (ep r) i ^^ elem sk i)) ∧
    ∃ (xl xr q : BitVec 4),
      elems xl = [elem r 3 ^^ elem sk 0, elem r 0 ^^ elem sk 1, elem r 1 ^^ elem sk 2, elem r 2 ^^ elem sk 3] ∧
      elems xr = [elem r 1 ^^ elem sk 4, elem r 2 ^^ elem sk 5, elem r 3 ^^ elem sk 6, elem r 0 ^^ elem sk 7] ∧
      q = sbox xl tableS0 ++ sbox xr tableS1 ∧ sboxPair (mixSubkey (ep r) sk) = q ∧
      elems (fk r sk) = [elem q 1, elem q 3, elem q 2, elem q 0]) ∧
  ep 0b1101 = 0b11101011 ∧ mixSubkey 0b11101011 0b10100010 = 0b01001001 ∧ sboxPair 0b01001001 = 0b1110 ∧
  fk 0b1101 0b10100010 = 0b1011 ∧ fk 0b0000 0b00000000 = 0b1000

/-- 44_feistel.md R110 (derived in the spec): FK reads its operands only through `EP(r) ⊕ sk`. -/
def Obligations.RoundFunctionReadsOnlyTheMix : Prop :=
  ∀ (r r' : HalfBlock) (sk sk' : Subkey), (∀ i, i < 8 → (elem (ep r) i ^^ elem sk i) = (elem (ep r') i ^^ elem sk' i)) →
    fk r sk = fk r' sk'

/-- R132: decryption undoes encryption and encryption undoes decryption; for each key, encryption is a bijection on the
blocks; and on the engine, `ENC k, b` followed by `DEC k, dout`, without reset, leaves `dout = b`, whatever the registers held
and whatever else the host drives. Past the end of the listed inputs the host requests nothing (log 2). -/
def Obligations.DecryptUndoesEncrypt : Prop :=
  (∀ (k : Key) (b : Block),
    sdes (sdes b k .encrypt) k .decrypt = b ∧ sdes (sdes b k .decrypt) k .encrypt = b) ∧
  (∀ k : Key, Function.Bijective (fun b => sdes b k .encrypt)) ∧
  (∀ (s : State) (k : Key) (b : Block), s.ctrl = .idle → noReset 12 s →
    ∃ t u v w, exec (.enc k b) s = .next t ∧ run 6 t = .next u ∧ exec (.dec k u.dout) u = .next v ∧ run 6 v = .next w ∧
      w.done = true ∧ w.dout = b)

/-- The key schedule's six steps (42_key_schedule.md, R85) and the cipher's seven steps (45_controller.md section 1, R115 to
R118) written out over the general units, with the subkey order of each mode, a swap after round 1 and none after round 2.
Then values the spec derives by its script: of keys 0x282, 0x000 and 0x3FF (95_test_vectors.md section 2.3) and of six
commands (section 2.6). -/
def Obligations.CipherFollowsItsSteps : Prop :=
  (∀ (b : Block) (k : Key) (m : Mode),
    let t := perm k tableP10
    let l1 := rotl (slice t 0 5) 1
    let r1 := rotl (slice t 5 5) 1
    let k1 := perm (l1 ++ r1) tableP8
    let k2 := perm (rotl l1 2 ++ rotl r1 2) tableP8
    let u := perm b tableIP
    let hl0 := slice u 0 4
    let hr0 := slice u 4 4
    let hl1 := hr0
    let hr1 := hl0 ^^^ fk hr0 (if m = .encrypt then k1 else k2)
    let hl2 := hl1 ^^^ fk hr1 (if m = .encrypt then k2 else k1)
    keySched k = (k1, k2) ∧ sdes b k m = perm (hl2 ++ hr1) tableIPinv) ∧
  keySched 0x282 = (0xA2, 0x45) ∧ keySched 0x000 = (0x00, 0x00) ∧ keySched 0x3FF = (0xFF, 0xFF) ∧
  sdes 0x97 0x282 .encrypt = 0x79 ∧ sdes 0x00 0x000 .encrypt = 0xF0 ∧ sdes 0x79 0x282 .decrypt = 0x97 ∧
  sdes 0x97 0x282 .decrypt = 0xC5 ∧ sdes 0xAA 0x155 .encrypt = 0xEE ∧ sdes 0xC3 0x333 .decrypt = 0xCB

/-! ### Static checks and scripts -/

/-- R151: the six tables with the input length, number of entries and largest entry of the rule's table; and in general a
table is built exactly when its entries are in range, and refused as `E_INDEX_OUT_OF_RANGE` when one is not. -/
def Obligations.TablesAreCheckedBeforeUse : Prop :=
  (∀ (n l : Nat) (raw : List Nat), raw.length = l →
    ((∃ T, buildPerm n l raw = .ok T ∧ T.entries = raw) ↔ ∀ e ∈ raw, e < n) ∧
    (buildPerm n l raw = .error .indexOutOfRange ↔ ∃ e ∈ raw, n ≤ e)) ∧
  (tableP10.entries.length = 10 ∧ tableP10.entries.max? = some 9) ∧
  (tableP8.entries.length = 8 ∧ tableP8.entries.max? = some 9) ∧
  (tableIP.entries.length = 8 ∧ tableIP.entries.max? = some 7) ∧
  (tableIPinv.entries.length = 8 ∧ tableIPinv.entries.max? = some 7) ∧
  (tableEP.entries.length = 8 ∧ tableEP.entries.max? = some 3) ∧
  (tableP4.entries.length = 4 ∧ tableP4.entries.max? = some 3) ∧
  (∀ b : BitVec 4, sboxRow b < 4 ∧ sboxCol b < 4)

/-- 60_exceptions.md section 1 (R152) and 30_encoding.md section 3 (R63): a permutation table of another length, an S-box of
another shape and a script operand of another width are refused as `E_INVALID_LENGTH`, never truncated or padded; an operand
of the right width is read as it stands, in either notation. The model's own readings among the clauses: a table of another
length is `E_INVALID_LENGTH` also where it has an entry out of range, and an S-box with another shape or with an entry above 3
is this error (DEDUCED, log 10); an operand with another number of digits, or a value too large, is this error (DEDUCED,
log 17). -/
def Obligations.WrongWidthsAreRefused : Prop :=
  (∀ (n l : Nat) (raw : List Nat), buildPerm n l raw = .error .invalidLength ↔ raw.length ≠ l) ∧
  (∀ rows : List (List Nat), (rows.length ≠ 4 ∨ ∃ r ∈ rows, r.length ≠ 4) → buildSBox rows = .error .invalidLength) ∧
  (∀ rows : List (List Nat), (∃ r ∈ rows, ∃ v ∈ r, 4 ≤ v) → buildSBox rows = .error .invalidLength) ∧
  (∀ (n : Nat) (l : Literal), resolve n l = .error .invalidLength ↔ l.wf n = false) ∧
  (∀ (n : Nat) (x : BitVec n), resolve n (.value x.toNat) = .ok x ∧ resolve n (.digits (elems x)) = .ok x)

/-- 30_encoding.md section 3 (R63): the inputs a line leaves free do not matter: any two port values the line admits give
the same step from every state. That the step takes the line's edge off the coming inputs is the model's own (log 1). -/
def Obligations.FreeInputsOfALineDoNotMatter : Prop :=
  ∀ (l : Line) (p q : Ports) (s : State), lineAdmits l p = true → lineAdmits l q = true →
    step (s.present [p]) = step (s.present [q])

/-- 30_encoding.md section 3 (R64): `ENCRYPT k, b` and `DECRYPT k, b` in IDLE leave the result on `dout` with `done = 1`, in
IDLE, for operands in either notation. The clause `u.script = s.script`, that the edges that were coming are still to come, is
about the model's own field (DESIGN CHOICE, log 1), not R64. -/
def Obligations.PseudoCommandsGiveTheResult : Prop :=
  ∀ (bound : Nat) (s : State) (lk lb : Literal) (k : Key) (b : Block),
    s.ctrl = .idle → resolve 10 lk = .ok k → resolve 8 lb = .ok b →
    (∃ u, runItem bound (.encrypt lk lb) s = .ok u ∧ u.dout = sdes b k .encrypt ∧ u.done = true ∧ u.ctrl = .idle ∧
      u.script = s.script) ∧
    (∃ u, runItem bound (.decrypt lk lb) s = .ok u ∧ u.dout = sdes b k .decrypt ∧ u.done = true ∧ u.ctrl = .idle ∧
      u.script = s.script)

/-- 30_encoding.md section 3 (R64): after an accepting edge `WAITDONE` ends after six lines, and not after fewer (the bound
is the model's argument, log 12). -/
def Obligations.WaitDoneEndsAfterSixLines : Prop :=
  ∀ (i : Instr) (s : State), s.ctrl = .idle →
    ∃ t u, exec i s = .next t ∧ waitDone 6 t = .ok u ∧ u.ctrl = .idle ∧ u.done = true ∧
      u.dout = sdes i.block i.key i.mode ∧ waitDone 5 t = .error .waitTimeout
end

