-- ==== Sys2Proof/Laws/Decode.lean ====
section
/-! SUPPORT. The fields of a command word that `commandWord` puts together. -/

namespace Sys2Proof.Laws

theorem modeField_commandWord (m : Mode) (k : Key) (b : Block) : modeField (commandWord m k b) = m.bit := by
  rw [modeField, commandWord, BitVec.getLsbD_append, if_neg (by omega), BitVec.getLsbD_append, if_neg (by omega)]
  simp

theorem keyField_commandWord (m : Mode) (k : Key) (b : Block) : keyField (commandWord m k b) = k := by
  ext i hi
  simp only [keyField, commandWord, BitVec.getElem_extractLsb', BitVec.getLsbD_append]
  rw [if_neg (by omega), if_pos (by omega), Nat.add_sub_cancel_left]
  exact BitVec.getLsbD_eq_getElem hi

theorem blockField_commandWord (m : Mode) (k : Key) (b : Block) : blockField (commandWord m k b) = b := by
  ext i hi
  simp only [blockField, commandWord, BitVec.getElem_extractLsb', BitVec.getLsbD_append, Nat.zero_add]
  rw [if_pos (by omega)]
  exact BitVec.getLsbD_eq_getElem hi

end Sys2Proof.Laws
end

