-- ==== Sys2Proof/Laws/State.lean ====
section
/-! SUPPORT. One lemma per field per update of State: what each controller operation writes, and that it leaves every other
field alone. -/

namespace Sys2Proof.Laws

open Sys2Proof.Machine

variable (s : State)

/-! ### `State.setDone` (10_state.md R27) -/

@[simp] theorem setDone_ctrl : s.setDone.ctrl = s.ctrl := rfl
@[simp] theorem setDone_modeR : s.setDone.modeR = s.modeR := rfl
@[simp] theorem setDone_keyR : s.setDone.keyR = s.keyR := rfl
@[simp] theorem setDone_dinR : s.setDone.dinR = s.dinR := rfl
@[simp] theorem setDone_kl : s.setDone.kl = s.kl := rfl
@[simp] theorem setDone_kr : s.setDone.kr = s.kr := rfl
@[simp] theorem setDone_k1R : s.setDone.k1R = s.k1R := rfl
@[simp] theorem setDone_k2R : s.setDone.k2R = s.k2R := rfl
@[simp] theorem setDone_lR : s.setDone.lR = s.lR := rfl
@[simp] theorem setDone_rR : s.setDone.rR = s.rR := rfl
@[simp] theorem setDone_doutR : s.setDone.doutR = s.doutR := rfl
@[simp] theorem setDone_doneR : s.setDone.doneR = true := rfl
@[simp] theorem setDone_script : s.setDone.script = s.script := rfl

/-! ### `State.clearDone` (10_state.md R27) -/

@[simp] theorem clearDone_ctrl : s.clearDone.ctrl = s.ctrl := rfl
@[simp] theorem clearDone_modeR : s.clearDone.modeR = s.modeR := rfl
@[simp] theorem clearDone_keyR : s.clearDone.keyR = s.keyR := rfl
@[simp] theorem clearDone_dinR : s.clearDone.dinR = s.dinR := rfl
@[simp] theorem clearDone_kl : s.clearDone.kl = s.kl := rfl
@[simp] theorem clearDone_kr : s.clearDone.kr = s.kr := rfl
@[simp] theorem clearDone_k1R : s.clearDone.k1R = s.k1R := rfl
@[simp] theorem clearDone_k2R : s.clearDone.k2R = s.k2R := rfl
@[simp] theorem clearDone_lR : s.clearDone.lR = s.lR := rfl
@[simp] theorem clearDone_rR : s.clearDone.rR = s.rR := rfl
@[simp] theorem clearDone_doutR : s.clearDone.doutR = s.doutR := rfl
@[simp] theorem clearDone_doneR : s.clearDone.doneR = false := rfl
@[simp] theorem clearDone_script : s.clearDone.script = s.script := rfl

/-! ### `State.dropEdge` (log 1) -/

@[simp] theorem dropEdge_ctrl : s.dropEdge.ctrl = s.ctrl := rfl
@[simp] theorem dropEdge_modeR : s.dropEdge.modeR = s.modeR := rfl
@[simp] theorem dropEdge_keyR : s.dropEdge.keyR = s.keyR := rfl
@[simp] theorem dropEdge_dinR : s.dropEdge.dinR = s.dinR := rfl
@[simp] theorem dropEdge_kl : s.dropEdge.kl = s.kl := rfl
@[simp] theorem dropEdge_kr : s.dropEdge.kr = s.kr := rfl
@[simp] theorem dropEdge_k1R : s.dropEdge.k1R = s.k1R := rfl
@[simp] theorem dropEdge_k2R : s.dropEdge.k2R = s.k2R := rfl
@[simp] theorem dropEdge_lR : s.dropEdge.lR = s.lR := rfl
@[simp] theorem dropEdge_rR : s.dropEdge.rR = s.rR := rfl
@[simp] theorem dropEdge_doutR : s.dropEdge.doutR = s.doutR := rfl
@[simp] theorem dropEdge_doneR : s.dropEdge.doneR = s.doneR := rfl
@[simp] theorem dropEdge_script : s.dropEdge.script = s.script.tail := rfl

/-! ### `State.present` (log 1) -/

@[simp] theorem present_ctrl (ps : List Ports) : (s.present ps).ctrl = s.ctrl := rfl
@[simp] theorem present_modeR (ps : List Ports) : (s.present ps).modeR = s.modeR := rfl
@[simp] theorem present_keyR (ps : List Ports) : (s.present ps).keyR = s.keyR := rfl
@[simp] theorem present_dinR (ps : List Ports) : (s.present ps).dinR = s.dinR := rfl
@[simp] theorem present_kl (ps : List Ports) : (s.present ps).kl = s.kl := rfl
@[simp] theorem present_kr (ps : List Ports) : (s.present ps).kr = s.kr := rfl
@[simp] theorem present_k1R (ps : List Ports) : (s.present ps).k1R = s.k1R := rfl
@[simp] theorem present_k2R (ps : List Ports) : (s.present ps).k2R = s.k2R := rfl
@[simp] theorem present_lR (ps : List Ports) : (s.present ps).lR = s.lR := rfl
@[simp] theorem present_rR (ps : List Ports) : (s.present ps).rR = s.rR := rfl
@[simp] theorem present_doutR (ps : List Ports) : (s.present ps).doutR = s.doutR := rfl
@[simp] theorem present_doneR (ps : List Ports) : (s.present ps).doneR = s.doneR := rfl
@[simp] theorem present_script (ps : List Ports) : (s.present ps).script = ps ++ s.script := rfl

/-! ### `State.resetStep` (70_reset_and_hazards.md R170) -/

@[simp] theorem resetStep_ctrl : s.resetStep.ctrl = .idle := rfl
@[simp] theorem resetStep_modeR : s.resetStep.modeR = s.modeR := rfl
@[simp] theorem resetStep_keyR : s.resetStep.keyR = s.keyR := rfl
@[simp] theorem resetStep_dinR : s.resetStep.dinR = s.dinR := rfl
@[simp] theorem resetStep_kl : s.resetStep.kl = s.kl := rfl
@[simp] theorem resetStep_kr : s.resetStep.kr = s.kr := rfl
@[simp] theorem resetStep_k1R : s.resetStep.k1R = s.k1R := rfl
@[simp] theorem resetStep_k2R : s.resetStep.k2R = s.k2R := rfl
@[simp] theorem resetStep_lR : s.resetStep.lR = s.lR := rfl
@[simp] theorem resetStep_rR : s.resetStep.rR = s.rR := rfl
@[simp] theorem resetStep_doutR : s.resetStep.doutR = 0x00 := rfl
@[simp] theorem resetStep_doneR : s.resetStep.doneR = false := rfl
@[simp] theorem resetStep_script : s.resetStep.script = s.script := rfl

/-! ### `State.accept` (45_controller.md R122) -/

@[simp] theorem accept_ctrl (m : Mode) (k : Key) (b : Block) : (s.accept m k b).ctrl = .ks1 := rfl
@[simp] theorem accept_modeR (m : Mode) (k : Key) (b : Block) : (s.accept m k b).modeR = m := rfl
@[simp] theorem accept_keyR (m : Mode) (k : Key) (b : Block) : (s.accept m k b).keyR = k := rfl
@[simp] theorem accept_dinR (m : Mode) (k : Key) (b : Block) : (s.accept m k b).dinR = b := rfl
@[simp] theorem accept_kl (m : Mode) (k : Key) (b : Block) : (s.accept m k b).kl = s.kl := rfl
@[simp] theorem accept_kr (m : Mode) (k : Key) (b : Block) : (s.accept m k b).kr = s.kr := rfl
@[simp] theorem accept_k1R (m : Mode) (k : Key) (b : Block) : (s.accept m k b).k1R = s.k1R := rfl
@[simp] theorem accept_k2R (m : Mode) (k : Key) (b : Block) : (s.accept m k b).k2R = s.k2R := rfl
@[simp] theorem accept_lR (m : Mode) (k : Key) (b : Block) : (s.accept m k b).lR = s.lR := rfl
@[simp] theorem accept_rR (m : Mode) (k : Key) (b : Block) : (s.accept m k b).rR = s.rR := rfl
@[simp] theorem accept_doutR (m : Mode) (k : Key) (b : Block) : (s.accept m k b).doutR = s.doutR := rfl
@[simp] theorem accept_doneR (m : Mode) (k : Key) (b : Block) : (s.accept m k b).doneR = false := rfl
@[simp] theorem accept_script (m : Mode) (k : Key) (b : Block) : (s.accept m k b).script = s.script := rfl

/-! ### `State.stepKS1` (R123) -/

@[simp] theorem stepKS1_ctrl : s.stepKS1.ctrl = .ks2 := rfl
@[simp] theorem stepKS1_modeR : s.stepKS1.modeR = s.modeR := rfl
@[simp] theorem stepKS1_keyR : s.stepKS1.keyR = s.keyR := rfl
@[simp] theorem stepKS1_dinR : s.stepKS1.dinR = s.dinR := rfl
@[simp] theorem stepKS1_kl : s.stepKS1.kl = halfKeyL1 s.keyR := rfl
@[simp] theorem stepKS1_kr : s.stepKS1.kr = halfKeyR1 s.keyR := rfl
@[simp] theorem stepKS1_k1R : s.stepKS1.k1R = subkeyOf (halfKeyL1 s.keyR) (halfKeyR1 s.keyR) := rfl
@[simp] theorem stepKS1_k2R : s.stepKS1.k2R = s.k2R := rfl
@[simp] theorem stepKS1_lR : s.stepKS1.lR = s.lR := rfl
@[simp] theorem stepKS1_rR : s.stepKS1.rR = s.rR := rfl
@[simp] theorem stepKS1_doutR : s.stepKS1.doutR = s.doutR := rfl
@[simp] theorem stepKS1_doneR : s.stepKS1.doneR = s.doneR := rfl
@[simp] theorem stepKS1_script : s.stepKS1.script = s.script := rfl

/-! ### `State.stepKS2` (R124) -/

@[simp] theorem stepKS2_ctrl : s.stepKS2.ctrl = .ips := rfl
@[simp] theorem stepKS2_modeR : s.stepKS2.modeR = s.modeR := rfl
@[simp] theorem stepKS2_keyR : s.stepKS2.keyR = s.keyR := rfl
@[simp] theorem stepKS2_dinR : s.stepKS2.dinR = s.dinR := rfl
@[simp] theorem stepKS2_kl : s.stepKS2.kl = rotl2 s.kl := rfl
@[simp] theorem stepKS2_kr : s.stepKS2.kr = rotl2 s.kr := rfl
@[simp] theorem stepKS2_k1R : s.stepKS2.k1R = s.k1R := rfl
@[simp] theorem stepKS2_k2R : s.stepKS2.k2R = subkeyOf (rotl2 s.kl) (rotl2 s.kr) := rfl
@[simp] theorem stepKS2_lR : s.stepKS2.lR = s.lR := rfl
@[simp] theorem stepKS2_rR : s.stepKS2.rR = s.rR := rfl
@[simp] theorem stepKS2_doutR : s.stepKS2.doutR = s.doutR := rfl
@[simp] theorem stepKS2_doneR : s.stepKS2.doneR = s.doneR := rfl
@[simp] theorem stepKS2_script : s.stepKS2.script = s.script := rfl

/-! ### `State.stepIPS` (R125) -/

@[simp] theorem stepIPS_ctrl : s.stepIPS.ctrl = .rnd1 := rfl
@[simp] theorem stepIPS_modeR : s.stepIPS.modeR = s.modeR := rfl
@[simp] theorem stepIPS_keyR : s.stepIPS.keyR = s.keyR := rfl
@[simp] theorem stepIPS_dinR : s.stepIPS.dinR = s.dinR := rfl
@[simp] theorem stepIPS_kl : s.stepIPS.kl = s.kl := rfl
@[simp] theorem stepIPS_kr : s.stepIPS.kr = s.kr := rfl
@[simp] theorem stepIPS_k1R : s.stepIPS.k1R = s.k1R := rfl
@[simp] theorem stepIPS_k2R : s.stepIPS.k2R = s.k2R := rfl
@[simp] theorem stepIPS_lR : s.stepIPS.lR = (splitIP s.dinR).1 := rfl
@[simp] theorem stepIPS_rR : s.stepIPS.rR = (splitIP s.dinR).2 := rfl
@[simp] theorem stepIPS_doutR : s.stepIPS.doutR = s.doutR := rfl
@[simp] theorem stepIPS_doneR : s.stepIPS.doneR = s.doneR := rfl
@[simp] theorem stepIPS_script : s.stepIPS.script = s.script := rfl

/-! ### `State.stepRND1` (R126) -/

@[simp] theorem stepRND1_ctrl : s.stepRND1.ctrl = .rnd2 := rfl
@[simp] theorem stepRND1_modeR : s.stepRND1.modeR = s.modeR := rfl
@[simp] theorem stepRND1_keyR : s.stepRND1.keyR = s.keyR := rfl
@[simp] theorem stepRND1_dinR : s.stepRND1.dinR = s.dinR := rfl
@[simp] theorem stepRND1_kl : s.stepRND1.kl = s.kl := rfl
@[simp] theorem stepRND1_kr : s.stepRND1.kr = s.kr := rfl
@[simp] theorem stepRND1_k1R : s.stepRND1.k1R = s.k1R := rfl
@[simp] theorem stepRND1_k2R : s.stepRND1.k2R = s.k2R := rfl
@[simp] theorem stepRND1_lR : s.stepRND1.lR = s.rR := rfl
@[simp] theorem stepRND1_rR : s.stepRND1.rR = s.lR ^^^ fk s.rR (firstSubkey s.modeR s.k1R s.k2R) := rfl
@[simp] theorem stepRND1_doutR : s.stepRND1.doutR = s.doutR := rfl
@[simp] theorem stepRND1_doneR : s.stepRND1.doneR = s.doneR := rfl
@[simp] theorem stepRND1_script : s.stepRND1.script = s.script := rfl

/-! ### `State.stepRND2` (R127) -/

@[simp] theorem stepRND2_ctrl : s.stepRND2.ctrl = .fin := rfl
@[simp] theorem stepRND2_modeR : s.stepRND2.modeR = s.modeR := rfl
@[simp] theorem stepRND2_keyR : s.stepRND2.keyR = s.keyR := rfl
@[simp] theorem stepRND2_dinR : s.stepRND2.dinR = s.dinR := rfl
@[simp] theorem stepRND2_kl : s.stepRND2.kl = s.kl := rfl
@[simp] theorem stepRND2_kr : s.stepRND2.kr = s.kr := rfl
@[simp] theorem stepRND2_k1R : s.stepRND2.k1R = s.k1R := rfl
@[simp] theorem stepRND2_k2R : s.stepRND2.k2R = s.k2R := rfl
@[simp] theorem stepRND2_lR : s.stepRND2.lR = s.lR ^^^ fk s.rR (secondSubkey s.modeR s.k1R s.k2R) := rfl
@[simp] theorem stepRND2_rR : s.stepRND2.rR = s.rR := rfl
@[simp] theorem stepRND2_doutR : s.stepRND2.doutR = s.doutR := rfl
@[simp] theorem stepRND2_doneR : s.stepRND2.doneR = s.doneR := rfl
@[simp] theorem stepRND2_script : s.stepRND2.script = s.script := rfl

/-! ### `State.stepFIN` (R128) -/

@[simp] theorem stepFIN_ctrl : s.stepFIN.ctrl = .idle := rfl
@[simp] theorem stepFIN_modeR : s.stepFIN.modeR = s.modeR := rfl
@[simp] theorem stepFIN_keyR : s.stepFIN.keyR = s.keyR := rfl
@[simp] theorem stepFIN_dinR : s.stepFIN.dinR = s.dinR := rfl
@[simp] theorem stepFIN_kl : s.stepFIN.kl = s.kl := rfl
@[simp] theorem stepFIN_kr : s.stepFIN.kr = s.kr := rfl
@[simp] theorem stepFIN_k1R : s.stepFIN.k1R = s.k1R := rfl
@[simp] theorem stepFIN_k2R : s.stepFIN.k2R = s.k2R := rfl
@[simp] theorem stepFIN_lR : s.stepFIN.lR = s.lR := rfl
@[simp] theorem stepFIN_rR : s.stepFIN.rR = s.rR := rfl
@[simp] theorem stepFIN_doutR : s.stepFIN.doutR = joinIPinv (s.lR, s.rR) := rfl
@[simp] theorem stepFIN_doneR : s.stepFIN.doneR = true := rfl
@[simp] theorem stepFIN_script : s.stepFIN.script = s.script := rfl

/-! ### `State.stepUnused7` (R134) -/

@[simp] theorem stepUnused7_ctrl : s.stepUnused7.ctrl = .idle := rfl
@[simp] theorem stepUnused7_modeR : s.stepUnused7.modeR = s.modeR := rfl
@[simp] theorem stepUnused7_keyR : s.stepUnused7.keyR = s.keyR := rfl
@[simp] theorem stepUnused7_dinR : s.stepUnused7.dinR = s.dinR := rfl
@[simp] theorem stepUnused7_kl : s.stepUnused7.kl = s.kl := rfl
@[simp] theorem stepUnused7_kr : s.stepUnused7.kr = s.kr := rfl
@[simp] theorem stepUnused7_k1R : s.stepUnused7.k1R = s.k1R := rfl
@[simp] theorem stepUnused7_k2R : s.stepUnused7.k2R = s.k2R := rfl
@[simp] theorem stepUnused7_lR : s.stepUnused7.lR = s.lR := rfl
@[simp] theorem stepUnused7_rR : s.stepUnused7.rR = s.rR := rfl
@[simp] theorem stepUnused7_doutR : s.stepUnused7.doutR = s.doutR := rfl
@[simp] theorem stepUnused7_doneR : s.stepUnused7.doneR = s.doneR := rfl
@[simp] theorem stepUnused7_script : s.stepUnused7.script = s.script := rfl

end Sys2Proof.Laws
end

