-- ==== Sys2Proof/Laws/Ops.lean ====
section
/-! SUPPORT. What an edge can do, said once: the value of `edge` in each controller state, that a step is an edge of the
controller, and how runs unfold. -/

namespace Sys2Proof.Laws

open Sys2Proof.Machine

/-! ### One edge -/

theorem edge_reset {p : Ports} {s : State} (h : p.rst = true) : edge p s = s.resetStep := by
  simp [edge, h]

theorem edge_accept {p : Ports} {s : State} (hr : p.rst = false) (hs : p.start = true) (hc : s.ctrl = .idle) :
    edge p s = s.accept p.mode p.key p.din := by
  simp [edge, hr, hs, hc]

theorem edge_hold {p : Ports} {s : State} (hr : p.rst = false) (hs : p.start = false) (hc : s.ctrl = .idle) :
    edge p s = s := by
  simp [edge, hr, hs, hc]

theorem edge_ks1 {p : Ports} {s : State} (hr : p.rst = false) (hc : s.ctrl = .ks1) : edge p s = s.stepKS1 := by
  simp [edge, hr, hc]

theorem edge_ks2 {p : Ports} {s : State} (hr : p.rst = false) (hc : s.ctrl = .ks2) : edge p s = s.stepKS2 := by
  simp [edge, hr, hc]

theorem edge_ips {p : Ports} {s : State} (hr : p.rst = false) (hc : s.ctrl = .ips) : edge p s = s.stepIPS := by
  simp [edge, hr, hc]

theorem edge_rnd1 {p : Ports} {s : State} (hr : p.rst = false) (hc : s.ctrl = .rnd1) : edge p s = s.stepRND1 := by
  simp [edge, hr, hc]

theorem edge_rnd2 {p : Ports} {s : State} (hr : p.rst = false) (hc : s.ctrl = .rnd2) : edge p s = s.stepRND2 := by
  simp [edge, hr, hc]

theorem edge_fin {p : Ports} {s : State} (hr : p.rst = false) (hc : s.ctrl = .fin) : edge p s = s.stepFIN := by
  simp [edge, hr, hc]

theorem edge_unused7 {p : Ports} {s : State} (hr : p.rst = false) (hc : s.ctrl = .unused7) :
    edge p s = s.stepUnused7 := by
  simp [edge, hr, hc]

/-- Everything one edge can do (45_controller.md R121). -/
theorem edge_cases (p : Ports) (s : State) :
    (p.rst = true ∧ edge p s = s.resetStep) ∨
    (p.rst = false ∧ s.ctrl = .idle ∧ p.start = true ∧ edge p s = s.accept p.mode p.key p.din) ∨
    (p.rst = false ∧ s.ctrl = .idle ∧ p.start = false ∧ edge p s = s) ∨
    (p.rst = false ∧ s.ctrl = .ks1 ∧ edge p s = s.stepKS1) ∨
    (p.rst = false ∧ s.ctrl = .ks2 ∧ edge p s = s.stepKS2) ∨
    (p.rst = false ∧ s.ctrl = .ips ∧ edge p s = s.stepIPS) ∨
    (p.rst = false ∧ s.ctrl = .rnd1 ∧ edge p s = s.stepRND1) ∨
    (p.rst = false ∧ s.ctrl = .rnd2 ∧ edge p s = s.stepRND2) ∨
    (p.rst = false ∧ s.ctrl = .fin ∧ edge p s = s.stepFIN) ∨
    (p.rst = false ∧ s.ctrl = .unused7 ∧ edge p s = s.stepUnused7) := by
  cases hr : p.rst
  · cases hc : s.ctrl
    case idle => cases hs : p.start <;> simp [edge, hr, hs, hc]
    all_goals simp [edge, hr, hc]
  · simp [edge, hr]

/-- An edge takes no input from the list of coming inputs; only the step does. -/
theorem edge_script (p : Ports) (s : State) : (edge p s).script = s.script := by
  rcases edge_cases p s with ⟨-, h⟩ | ⟨-, -, -, h⟩ | ⟨-, -, -, h⟩ | ⟨-, -, h⟩ | ⟨-, -, h⟩ | ⟨-, -, h⟩ | ⟨-, -, h⟩ |
    ⟨-, -, h⟩ | ⟨-, -, h⟩ | ⟨-, -, h⟩ <;> simp [h]

/-! ### Commands and steps -/

theorem exec_eq_edge (i : Instr) (s : State) : exec i s = .next (edge (presenting i.mode i.key i.block) s) := by
  cases i <;> rfl

theorem decode_presentedWord (p : Ports) :
    (decode (presentedWord p)).mode = p.mode ∧ (decode (presentedWord p)).key = p.key ∧
    (decode (presentedWord p)).block = p.din := by
  unfold decode presentedWord
  rw [modeField_commandWord, keyField_commandWord, blockField_commandWord]
  cases h : p.mode <;> simp [Mode.bit, Mode.ofBit, Instr.mode, Instr.key, Instr.block]

/-- A clocked edge is an edge of the controller, whether or not it presents a command. -/
theorem clockEdge_eq (p : Ports) (s : State) : clockEdge p s = .next (edge p s) := by
  unfold clockEdge
  split
  next h =>
    obtain ⟨hm, hk, hb⟩ := decode_presentedWord p
    rw [exec_eq_edge, hm, hk, hb]
    simp only [presents, Bool.and_eq_true, Bool.not_eq_true'] at h
    congr 2
    cases p
    simp_all [presenting]
  next => rfl

/-- The next state: every step has one. -/
theorem step_eq_edge (s : State) : step s = .next (edge s.portsNow s.dropEdge) := clockEdge_eq _ _

/-! ### Runs -/

theorem run_zero (s : State) : run 0 s = .next s := rfl

/-- A run goes on from where its first step leads. -/
theorem coreRun_succ {M : Host.Core} {n : Nat} {s t : M.State} (h : M.step s = .next t) :
    M.run (n + 1) s = M.run n t := by
  rw [Host.Core.run, h]

theorem run_succ (n : Nat) (s : State) : run (n + 1) s = run n (edge s.portsNow s.dropEdge) :=
  coreRun_succ (M := Sys2Proof.core) (step_eq_edge s)

theorem portsNow_reset_of_noReset {n : Nat} {s : State} (h : noReset (n + 1) s) : s.portsNow.rst = false := by
  cases hs : s.script with
  | nil => simp [State.portsNow, hs, noRequest]
  | cons p ps => simpa [State.portsNow, hs] using h p (by simp [hs])

theorem noReset_next {n : Nat} {s : State} (h : noReset (n + 1) s) : noReset n (edge s.portsNow s.dropEdge) := by
  intro p hp
  rw [edge_script, dropEdge_script] at hp
  refine h p ?_
  cases hs : s.script with
  | nil => simp [hs] at hp
  | cons q qs => rw [hs] at hp; simp only [List.take_succ_cons, List.mem_cons]; exact .inr hp

theorem noReset_mono {n m : Nat} {s : State} (h : noReset n s) (hm : m ≤ n) : noReset m s :=
  fun p hp => h p (List.take_subset_take_left _ hm hp)

end Sys2Proof.Laws
end

