-- ==== Sys2Proof/Laws/PerInstr.lean ====
section
/-! SUPPORT. The statements made instruction by instruction. -/

namespace Sys2Proof.Laws.Encoding

/-- The word of a command holds its mode, key and block in the fields of 30_encoding.md R56. -/
def Statement (i : Instr) : Prop :=
  modeField (encode i) = i.mode.bit ∧ keyField (encode i) = i.key ∧ blockField (encode i) = i.block

theorem enc (k : Key) (b : Block) : Statement (.enc k b) :=
  ⟨modeField_commandWord _ _ _, keyField_commandWord _ _ _, blockField_commandWord _ _ _⟩

theorem dec (k : Key) (b : Block) : Statement (.dec k b) :=
  ⟨modeField_commandWord _ _ _, keyField_commandWord _ _ _, blockField_commandWord _ _ _⟩

end Sys2Proof.Laws.Encoding
end

