-- ==== Sys2Proof/Laws/Script.lean ====
section
/-! SUPPORT. Driving one edge of a script is one edge of the controller, and it leaves the edges that were coming alone. -/

namespace Sys2Proof.Laws

open Sys2Proof.Machine

@[simp] theorem present_one_portsNow (s : State) (p : Ports) : (s.present [p]).portsNow = p := rfl

@[simp] theorem present_one_dropEdge (s : State) (p : Ports) : (s.present [p]).dropEdge = s := rfl

theorem step_present (s : State) (p : Ports) : step (s.present [p]) = .next (edge p s) := by
  rw [step_eq_edge, present_one_portsNow, present_one_dropEdge]

theorem driveEdge_eq (p : Ports) (s : State) : driveEdge p s = .ok (edge p s) := by
  rw [driveEdge, step_present]

end Sys2Proof.Laws
end

