-- ==== Sys2Proof/Laws/Seq.lean ====
section
/-! SUPPORT. The laws of bit sequences: what element access says of each way to build a sequence. -/

namespace Sys2Proof.Laws

open Sys2Proof.Machine

theorem seq_ext {n : Nat} {s t : BitVec n} (h : ∀ i, i < n → elem s i = elem t i) : s = t :=
  BitVec.eq_of_getMsbD_eq h

theorem elem_ge {n i : Nat} (s : BitVec n) (h : n ≤ i) : elem s i = false := by
  simp [elem, BitVec.getMsbD, Nat.not_lt.mpr h]

theorem elem_cons_zero {n : Nat} (b : Bool) (s : BitVec n) : elem (BitVec.cons b s) 0 = b := by
  rw [elem, BitVec.getMsbD, show n + 1 - 1 - 0 = n by omega, BitVec.getLsbD_cons, if_pos rfl]
  simp

theorem elem_cons_succ {n : Nat} (b : Bool) (s : BitVec n) (i : Nat) :
    elem (BitVec.cons b s) (i + 1) = elem s i := by
  by_cases h : i < n
  · rw [elem, elem, BitVec.getMsbD, BitVec.getMsbD, show n + 1 - 1 - (i + 1) = n - 1 - i by omega, BitVec.getLsbD_cons,
      if_neg (by omega)]
    simp [h]
  · rw [elem_ge _ (by omega), elem_ge _ (by omega)]

theorem elem_ofElems {n : Nat} (f : Nat → Bool) {i : Nat} (h : i < n) : elem (ofElems n f) i = f i := by
  induction n generalizing f i with
  | zero => omega
  | succ n ih =>
    cases i with
    | zero => exact elem_cons_zero _ _
    | succ i => rw [ofElems, elem_cons_succ]; exact ih (fun j => f (j + 1)) (by omega)

theorem ofElems_congr {n : Nat} {f g : Nat → Bool} (h : ∀ i, i < n → f i = g i) : ofElems n f = ofElems n g :=
  seq_ext fun i hi => by rw [elem_ofElems f hi, elem_ofElems g hi, h i hi]

theorem ofElems_elem {n : Nat} (s : BitVec n) : ofElems n (elem s) = s :=
  seq_ext fun _ hi => elem_ofElems _ hi

theorem elem_xor {n : Nat} (s t : BitVec n) (i : Nat) : elem (s ^^^ t) i = (elem s i ^^ elem t i) := by
  simp [elem]

theorem elem_append {n m : Nat} (s : BitVec n) (t : BitVec m) (i : Nat) :
    elem (s ++ t) i = if n ≤ i then elem t (i - n) else elem s i := by
  simp [elem, BitVec.getMsbD_append]

theorem elem_slice {n : Nat} (s : BitVec n) (a : Nat) {len i : Nat} (h : i < len) :
    elem (slice s a len) i = elem s (a + i) :=
  elem_ofElems _ h

theorem slice_append_left {n m : Nat} (s : BitVec n) (t : BitVec m) : slice (s ++ t) 0 n = s :=
  seq_ext fun i hi => by rw [elem_slice _ _ hi, elem_append, Nat.zero_add, if_neg (by omega)]

theorem slice_append_right {n m : Nat} (s : BitVec n) (t : BitVec m) : slice (s ++ t) n m = t :=
  seq_ext fun i hi => by rw [elem_slice _ _ hi, elem_append, if_pos (by omega), Nat.add_sub_cancel_left]

/-- A sequence is its two halves put together (00_scope.md R11). -/
theorem slice_append_slice {n m : Nat} (s : BitVec (n + m)) : slice s 0 n ++ slice s n m = s :=
  seq_ext fun i hi => by
    rw [elem_append]
    split
    · rw [elem_slice _ _ (by omega), Nat.add_sub_cancel' ‹_›]
    · rw [elem_slice _ _ (by omega), Nat.zero_add]

/-- What PERM does (40_permutation.md R70). -/
theorem elem_perm {n l : Nat} (s : BitVec n) (T : PermTable n l) {i : Nat} (h : i < l) :
    elem (perm s T) i = elem s (T.entries.getD i 0) :=
  elem_ofElems _ h

/-- What ROTL does (41_shift.md R80). -/
theorem elem_rotl {n : Nat} (s : BitVec n) (S : Nat) {i : Nat} (h : i < n) :
    elem (rotl s S) i = elem s ((i + S) % n) :=
  elem_ofElems _ h

end Sys2Proof.Laws
end

