-- ==== Sys2Proof/Laws/WellFormed.lean ====
section
/-! SUPPORT. What passing a static check says. -/

namespace Sys2Proof.Laws

theorem passes_checkPerm (n l : Nat) (raw : List Nat) :
    passes (checkPerm n l raw) = true ↔ raw.length = l ∧ ∀ e ∈ raw, e < n := by
  unfold checkPerm
  split
  · simp_all [passes]
  · split <;> simp_all [passes]

theorem passes_checkSBox (rows : List (List Nat)) :
    passes (checkSBox rows) = true ↔ rows.length = 4 ∧ ∀ r ∈ rows, r.length = 4 ∧ ∀ v ∈ r, v < 4 := by
  unfold checkSBox
  simp only [List.all_eq_true, Bool.and_eq_true, decide_eq_true_eq]
  split
  next h => simpa only [passes, true_iff] using h
  next h => simpa only [passes, Bool.false_eq_true, false_iff] using h

/-- A built table is as long as its unit's output. -/
theorem permTable_length {n l : Nat} (T : PermTable n l) : T.entries.length = l :=
  ((passes_checkPerm n l T.entries).mp T.checked).1

/-- Every entry of a built table is a position of the input. -/
theorem permTable_entry_lt {n l : Nat} (T : PermTable n l) {e : Nat} (h : e ∈ T.entries) : e < n :=
  ((passes_checkPerm n l T.entries).mp T.checked).2 e h

end Sys2Proof.Laws
end

