-- ==== Sys2Proof/Tests/Slice0.lean ====
section
/-! SUPPORT. Tests. Expected values come from spec/ (95_test_vectors.md, or the rule named), never from the model. Then one
witness per statement with hypotheses. -/

namespace Sys2Proof.Tests

open Sys2Proof.Machine

/-! ### Decoding, the words written out from 30_encoding.md R56: m, then k, then b -/

theorem test_decode_enc : decode 0b0101000001010010111 = .enc 0b1010000010 0b10010111 := by decide
theorem test_decode_dec : decode 0b1101000001001111001 = .dec 0b1010000010 0b01111001 := by decide
theorem test_encode_enc : encode (.enc 0b1010000010 0b10010111) = 0b0101000001010010111 := by decide
theorem test_encode_dec : encode (.dec 0b1010000010 0b01111001) = 0b1101000001001111001 := by decide
/-- P1's e02 (95_test_vectors.md section 3), in the table's whole bytes. -/
theorem test_table_word : decodeTableWord 24 0x28297 = some (.enc 0x282 0x97) := by decide
/-- Bit 19 is no bit of a command word (R55). -/
theorem test_no_command_word : decodeNat 0x80000 = .error .notACommandWord := by decide

/-! ### The static checks refuse ill-formed terms (60_exceptions.md R151, R152; 30_encoding.md R63) -/

theorem smoke_perm_index : buildPerm 4 4 [1, 3, 2, 4] = .error .indexOutOfRange := by decide
theorem smoke_perm_length : buildPerm 4 4 [1, 3, 2] = .error .invalidLength := by decide
theorem smoke_sbox_row : buildSBox [[1, 0, 3, 2], [3, 2, 1, 0], [0, 2, 1], [3, 1, 3, 2]] = .error .invalidLength := by decide
theorem smoke_sbox_entry :
    buildSBox [[1, 0, 3, 2], [3, 2, 1, 0], [0, 2, 1, 4], [3, 1, 3, 2]] = .error .invalidLength := by decide
theorem smoke_literal_digits : (Literal.digits [true, false]).wf 8 = false := by decide
theorem smoke_literal_value : (Literal.value 0x100).wf 8 = false := by decide
theorem smoke_line : (Line.enc (.value 0x400) (.value 0)).wf = false := by decide
theorem smoke_item : (ScriptItem.encrypt (.value 0) (.value 0x100)).wf = false := by decide
theorem smoke_line_refused : linePorts (.dec (.value 0x400) (.value 0)) = .error .invalidLength := by decide

/-! ### The units (95_test_vectors.md section 2) -/

theorem test_p10 : p10 0b1111100000 = 0b1000101011 := by decide
theorem test_p8 : p8 0b1010101010 = 0b01100011 := by decide
theorem test_ip : ip 0b11110000 = 0b10111000 := by decide
theorem test_ipInv : ipInv 0b00001111 = 0b00011011 := by decide
theorem test_ep : ep 0b1110 = 0b01111101 := by decide
theorem test_p4 : p4 0b0101 = 0b1100 := by decide
theorem test_rotl_amount_above_n : rotl (0b10000 : BitVec 5) 7 = 0b00010 := by decide
theorem test_rotl_8 : rotl (0b10010111 : BitVec 8) 3 = 0b10111100 := by decide
theorem test_keySched : keySched 0x1FD = (0x5F, 0xBB) := by decide +kernel
/-- The transposed reading would give `00` and `11` (section 2.4). -/
theorem test_sbox_orientation : sbox0 0b0100 = 0b11 ∧ sbox1 0b0100 = 0b10 := by decide
theorem test_fk : fk 0b0110 0b11110000 = 0b1100 := by decide +kernel
theorem test_sdes_encrypt : sdes 0xC3 0x333 .encrypt = 0xCD := by decide +kernel
theorem test_sdes_decrypt : sdes 0x3C 0x1FD .decrypt = 0xFB := by decide +kernel

/-! ### One edge at a time (95_test_vectors.md section 2.7 and program P1) -/

/-- A state of program P1: key 0x282, block 0x97, with the registers of the row given. -/
def p1State (c : CtrlState) : State :=
  { State.reset with ctrl := c, keyR := 0x282, dinR := 0x97, k1R := 0b10100010, k2R := 0b01000101 }

theorem test_enc_accepted :
    exec (.enc 0x155 0xAA) { p1State .idle with doutR := 0x79, doneR := true } =
      .next { p1State .ks1 with modeR := .encrypt, keyR := 0x155, dinR := 0xAA, doutR := 0x79 } := rfl
theorem test_dec_accepted :
    exec (.dec 0x282 0x79) (p1State .idle) =
      .next { p1State .ks1 with modeR := .decrypt, keyR := 0x282, dinR := 0x79 } := rfl
/-- P2's e04: presented in KS2, the command is ignored and KS2's own work is done. -/
theorem test_dec_while_busy :
    exec (.dec 0x3FF 0x00) (p1State .ks2) = .next (edge noRequest (p1State .ks2)) := rfl
theorem test_enc_in_unused7 : exec (.enc 0x282 0x97) (p1State .unused7) = .next (p1State .idle) := rfl
theorem test_placed_word_runs :
    step (State.reset.withFetchWord 24 0x68279) =
      .next { State.reset with ctrl := .ks1, modeR := .decrypt, keyR := 0x282, dinR := 0x79 } := rfl

theorem test_ks1 :
    edge noRequest (p1State .ks1) =
      { p1State .ks2 with kl := 0b00001, kr := 0b11000, k1R := 0b10100010 } := by decide +kernel
theorem test_ks2 :
    edge noRequest { p1State .ks2 with kl := 0b00001, kr := 0b11000 } =
      { p1State .ips with kl := 0b00100, kr := 0b00011, k2R := 0b01000101 } := by decide +kernel
theorem test_ips :
    edge noRequest (p1State .ips) = { p1State .rnd1 with lR := 0b0101, rR := 0b1101 } := by decide +kernel
theorem test_rnd1 :
    edge noRequest { p1State .rnd1 with lR := 0b0101, rR := 0b1101 } =
      { p1State .rnd2 with lR := 0b1101, rR := 0b1110 } := by decide +kernel
theorem test_rnd2 :
    edge noRequest { p1State .rnd2 with lR := 0b1101, rR := 0b1110 } =
      { p1State .fin with lR := 0b1010, rR := 0b1110 } := by decide +kernel
/-- P1's e12 to e13: decrypting, round 1 uses K2. -/
theorem test_rnd1_decrypt :
    edge noRequest { p1State .rnd1 with modeR := .decrypt, lR := 0b1010, rR := 0b1110 } =
      { p1State .rnd2 with modeR := .decrypt, lR := 0b1110, rR := 0b1101 } := by decide +kernel
theorem test_fin :
    edge noRequest { p1State .fin with lR := 0b1010, rR := 0b1110 } =
      { p1State .idle with lR := 0b1010, rR := 0b1110, doutR := 0x79, doneR := true } := by decide +kernel
theorem test_hold :
    edge noRequest { p1State .idle with doutR := 0x79, doneR := true } =
      { p1State .idle with doutR := 0x79, doneR := true } := by decide
theorem test_reset_beats_start :
    edge { presenting .encrypt 0x282 0x97 with rst := true } { p1State .idle with doutR := 0x79, doneR := true } =
      p1State .idle := by decide
theorem test_reset_mid_command :
    edge assertReset { p1State .ips with doutR := 0xF0 } = p1State .idle := by decide
theorem test_reset_from_unused7 : edge assertReset (p1State .unused7) = p1State .idle := by decide
theorem test_busy_in_unused7 : (p1State .unused7).busy = true := by decide

/-! ### Witnesses: a concrete state and operands that meet the hypotheses of each statement -/

/-- Reset's registers with a controller state and inputs of the host's. -/
def stateWith (c : CtrlState) (ps : List Ports) : State := { State.reset with ctrl := c, script := ps }

/-- The ports of `ENC 0x282, 0x97`. -/
def encPorts : Ports := presenting .encrypt 0x282 0x97

/-- A request that is not accepted while busy. -/
def decPorts : Ports := presenting .decrypt 0x3FF 0x00

theorem witness_DecodeOfEncodeIsTheCommand : (Instr.dec 0x3FF 0xFF).wf = true := by decide
theorem witness_EveryWordNamesExactlyOneCommand : encode (.dec 0x3FF 0xFF) = 0x7FFFF := by decide
theorem witness_OpcodeMapIsBit18 :
    (0x3FFFF : CommandWord) &&& 0x40000 = 0x00000 ∧ (0x40000 : CommandWord) &&& 0x40000 = 0x40000 := by decide
theorem witness_CommandWordFieldsBitByBit : 9 < 10 ∧ 7 < 8 := by decide
theorem witness_StepRunsThePresentedCommand :
    (stateWith .idle [encPorts]).script = encPorts :: [] ∧ encPorts.rst = false ∧ encPorts.start = true := by decide
theorem witness_StepRunsThePlacedWord : decodeTableWord 24 0x7FFFF = some (.dec 0x3FF 0xFF) := by decide
theorem witness_EncIsAcceptedAndGivesItsResult :
    (stateWith .idle [decPorts]).ctrl = .idle ∧ noReset 6 (stateWith .idle [decPorts]) := by decide
theorem witness_DecIsAcceptedAndGivesItsResult :
    (stateWith .idle (List.replicate 7 encPorts)).ctrl = .idle ∧ noReset 6 (stateWith .idle (List.replicate 7 encPorts)) := by
  decide
theorem witness_CommandWhileBusyIsIgnored :
    (stateWith .fin []).ctrl ≠ .idle ∧ (stateWith .fin []).ctrl ≠ .unused7 ∧ encPorts.rst = false ∧ noRequest.rst = false := by
  decide
theorem witness_CommandsFrame_idle :
    (stateWith .idle []).ctrl = .idle ∧ ∃ t, exec (.enc 0x282 0x97) (stateWith .idle []) = .next t := ⟨rfl, _, rfl⟩
theorem witness_CommandsFrame_busy :
    (stateWith .ks2 []).ctrl ≠ .idle ∧ (stateWith .ks2 []).ctrl ≠ .fin ∧
    ∃ t, exec (.dec 0x282 0x97) (stateWith .ks2 []) = .next t := ⟨by decide, by decide, _, rfl⟩
theorem witness_TransactionRule :
    (stateWith .idle (encPorts :: List.replicate 6 decPorts)).ctrl = .idle ∧
    (stateWith .idle (encPorts :: List.replicate 6 decPorts)).script = encPorts :: List.replicate 6 decPorts ∧
    encPorts.rst = false ∧ encPorts.start = true ∧ (∀ q ∈ (List.replicate 6 decPorts).take 6, q.rst = false) ∧
    [CtrlState.ks1, .ks2, .ips, .rnd1, .rnd2, .fin][5]? = some .fin := by decide
theorem witness_ResultDependsOnlyOnTheCommand :
    (p1State .idle).ctrl = .idle ∧ (stateWith .idle [decPorts]).ctrl = .idle ∧ noReset 6 (p1State .idle) ∧
    noReset 6 (stateWith .idle [decPorts]) := by decide

/-- Two commands with six edges each after them. -/
def twoBlocks : List (Instr × List Ports) :=
  [(.enc 0x282 0x97, List.replicate 6 noRequest), (.dec 0x282 0x79, List.replicate 6 decPorts)]

theorem witness_CommandsTakeEffectInOrder :
    (stateWith .idle (twoBlocks.flatMap (fun c => presenting c.1.mode c.1.key c.1.block :: c.2))).ctrl = .idle ∧
    (∀ c ∈ twoBlocks, c.2.length = 6 ∧ ∀ p ∈ c.2, p.rst = false) ∧
    twoBlocks[1]? = some (.dec 0x282 0x79, List.replicate 6 decPorts) := by decide
theorem witness_IdleEdges :
    ((stateWith .idle [encPorts]).ctrl = .idle ∧ (stateWith .idle [encPorts]).portsNow.rst = false ∧
      (stateWith .idle [encPorts]).portsNow.start = true) ∧
    ((stateWith .idle []).ctrl = .idle ∧ (stateWith .idle []).portsNow.rst = false ∧
      (stateWith .idle []).portsNow.start = false) := by decide
theorem witness_KeyScheduleEdges :
    ((stateWith .ks1 []).portsNow.rst = false ∧ (stateWith .ks1 []).ctrl = .ks1) ∧
    ((stateWith .ks2 []).portsNow.rst = false ∧ (stateWith .ks2 []).ctrl = .ks2) := by decide
theorem witness_BlockEdges :
    ((stateWith .ips []).portsNow.rst = false ∧ (stateWith .ips []).ctrl = .ips) ∧
    ((stateWith .rnd1 []).portsNow.rst = false ∧ (stateWith .rnd1 []).ctrl = .rnd1) ∧
    ((stateWith .rnd2 []).portsNow.rst = false ∧ (stateWith .rnd2 []).ctrl = .rnd2) ∧
    ((stateWith .fin [encPorts]).portsNow.rst = false ∧ (stateWith .fin [encPorts]).ctrl = .fin) := by decide
theorem witness_UnusedCodeIsLeftAndNeverReached :
    (stateWith .unused7 [encPorts]).ctrl = .unused7 ∧ (stateWith .unused7 [encPorts]).portsNow.rst = false ∧
    ∃ t, step (stateWith .unused7 [encPorts]) = .next t := ⟨by decide, by decide, _, rfl⟩
theorem witness_DoneIsSetInFinAndClearedAtAcceptAndReset :
    (∃ t, step (stateWith .fin []) = .next t) ∧ (∃ t, step (stateWith .idle [encPorts]) = .next t) ∧
    (∃ t, step (stateWith .idle [assertReset]) = .next t) := ⟨⟨_, rfl⟩, ⟨_, rfl⟩, ⟨_, rfl⟩⟩
theorem witness_DoutIsWrittenOnlyInFinAndAtReset :
    (∃ t, step (stateWith .fin [assertReset]) = .next t) ∧ (stateWith .fin [assertReset]).portsNow.rst = true ∧
    (∃ t, step (stateWith .fin []) = .next t) ∧ (stateWith .fin []).portsNow.rst = false ∧
    (∃ t, step (stateWith .rnd2 []) = .next t) ∧ (stateWith .rnd2 []).ctrl ≠ .fin :=
  ⟨⟨_, rfl⟩, rfl, ⟨_, rfl⟩, rfl, ⟨_, rfl⟩, by decide⟩
theorem witness_RegistersAreWrittenOnlyInTheirStates_accept :
    ∃ t, step (stateWith .idle [decPorts]) = .next t ∧ t.keyR ≠ (stateWith .idle [decPorts]).keyR :=
  ⟨_, rfl, by decide +kernel⟩
theorem witness_RegistersAreWrittenOnlyInTheirStates_subkeys :
    (∃ t, step { p1State .ks1 with k1R := 0 } = .next t ∧ t.kl ≠ 0 ∧ t.k1R ≠ 0) ∧
    (∃ t, step { p1State .ks2 with kl := 0b00001, kr := 0b11000, k2R := 0 } = .next t ∧ t.k2R ≠ 0) :=
  ⟨⟨_, rfl, by decide +kernel, by decide +kernel⟩, ⟨_, rfl, by decide +kernel⟩⟩
theorem witness_RegistersAreWrittenOnlyInTheirStates_block :
    (∃ t, step (p1State .ips) = .next t ∧ t.lR ≠ (p1State .ips).lR ∧ t.rR ≠ (p1State .ips).rR) ∧
    (∃ t, step { p1State .fin with lR := 0b1010 } = .next t ∧ t.doutR ≠ 0 ∧ t.doneR ≠ false) :=
  ⟨⟨_, rfl, by decide +kernel, by decide +kernel⟩, ⟨_, rfl, by decide +kernel, by decide +kernel⟩⟩
theorem witness_ResetStepWinsAndWritesThreeRegisters :
    (stateWith .unused7 [{ encPorts with rst := true }]).portsNow.rst = true := by decide
theorem witness_ResetAbandonsTheCommandInFlight :
    (stateWith .fin [assertReset, noRequest]).ctrl ≠ .idle ∧ (stateWith .fin [assertReset, noRequest]).ctrl ≠ .unused7 ∧
    (stateWith .fin [assertReset, noRequest]).portsNow.rst = true ∧
    (∀ p ∈ (stateWith .fin [assertReset, noRequest]).script.tail.take 5, p.rst = false ∧ p.start = false) := by decide
theorem witness_OneResetEdgeIsEnough :
    (stateWith .rnd1 [assertReset, assertReset]).portsNow.rst = true ∧
    ∃ t, step (stateWith .rnd1 [assertReset, assertReset]) = .next t ∧ t.portsNow.rst = true := ⟨by decide, _, rfl, rfl⟩
theorem witness_BootThenCommand :
    assertReset.rst = true ∧
    (stateWith .unused7 (assertReset :: presenting .encrypt 0x282 0x97 :: [decPorts])).script =
      assertReset :: presenting .encrypt 0x282 0x97 :: [decPorts] ∧ (∀ q ∈ [decPorts].take 6, q.rst = false) := by decide
theorem witness_EveryStepKeepsTheInvariant :
    ControllerInv (stateWith .ks1 []) ∧ ∃ t, step (stateWith .ks1 []) = .next t :=
  ⟨⟨by decide, by decide, by simp [Datapath, stateWith]⟩, _, rfl⟩
theorem witness_DoneMeansTheResultIsOnDout :
    ControllerInv (stateWith .ks1 []) ∧ ∃ t, run 6 (stateWith .ks1 []) = .next t ∧ t.done = true :=
  ⟨⟨by decide, by decide, by simp [Datapath, stateWith]⟩, _, rfl, rfl⟩
theorem witness_HiddenRegistersReachNoOutput :
    (p1State .idle).ctrl = .idle ∧ State.reset.ctrl = .idle ∧ (p1State .idle).doutR = State.reset.doutR ∧
    (p1State .idle).doneR = State.reset.doneR ∧ (p1State .idle).script = State.reset.script ∧
    (p1State .idle).keyR ≠ State.reset.keyR := by decide
theorem witness_ResultStaysWhileTheHostWaits :
    (stateWith .idle [noRequest, noRequest]).ctrl = .idle ∧ quiet 3 (stateWith .idle [noRequest, noRequest]) := by decide
theorem witness_BusyEngineFinishesWithinSixEdges :
    (stateWith .ks1 [encPorts]).ctrl ≠ .idle ∧ (stateWith .ks1 [encPorts]).ctrl ≠ .unused7 ∧
    noReset 6 (stateWith .ks1 [encPorts]) := by decide
theorem witness_StartHeldHighAcceptsEverySevenEdges :
    (stateWith .idle (List.replicate 8 encPorts)).ctrl = .idle ∧ startHeld 8 (stateWith .idle (List.replicate 8 encPorts)) := by
  decide
theorem witness_PermTakesElementsByTheTable : 3 < 4 ∧ tableP4.entries = [1, 3, 2, 0] := by decide
theorem witness_KeyPermutationP10 :
    (PermTable.mk (n := 10) (l := 10) [6, 8, 0, 4, 9, 1, 3, 2, 7, 5] (by decide)).entries = [6, 8, 0, 4, 9, 1, 3, 2, 7, 5] :=
  rfl
theorem witness_SubkeySelectionP8 :
    ∀ i, 2 ≤ i → i < 10 → elem (0b1100000000 : BitVec 10) i = elem (0b0000000000 : BitVec 10) i := by decide
theorem witness_RotlIsTheLeftRotation : 1 ≤ 5 ∧ 4 < 5 := by decide
theorem witness_SubkeysAreKeySelections : (p1State .ks1).ctrl = .ks1 ∧ noReset 2 (p1State .ks1) := by decide
theorem witness_EqualSubkeysForExactlyEightKeys : (keySched 0x050).1 = (keySched 0x050).2 := by decide +kernel
theorem witness_RoundFunctionReadsOnlyTheMix :
    ∀ i, i < 8 → (elem (ep 0b0000) i ^^ elem (0b00000000 : Subkey) i) = (elem (ep 0b1111) i ^^ elem (0b11111111 : Subkey) i) := by
  decide
theorem witness_DecryptUndoesEncrypt :
    (stateWith .idle (List.replicate 12 decPorts)).ctrl = .idle ∧ noReset 12 (stateWith .idle (List.replicate 12 decPorts)) := by
  decide
theorem witness_TablesAreCheckedBeforeUse : [1, 3, 2, 4].length = 4 ∧ (∃ e ∈ [1, 3, 2, 4], 4 ≤ e) := by decide
theorem witness_WrongWidthsAreRefused :
    ([[1, 0, 3, 2]] : List (List Nat)).length ≠ 4 ∧
    (∃ r ∈ [[1, 0, 3, 2], [3, 2, 1, 0], [0, 2, 1, 4], [3, 1, 3, 2]], ∃ v ∈ r, 4 ≤ v) := by decide
theorem witness_FreeInputsOfALineDoNotMatter :
    (lineAdmits .nop noRequest = true ∧ lineAdmits .nop { noRequest with key := 0x3FF } = true) ∧
    (lineAdmits .rst assertReset = true ∧ lineAdmits .rst { encPorts with rst := true } = true) ∧
    lineAdmits (.enc (.value 0x282) (.value 0x97)) encPorts = true := by decide
theorem witness_PseudoCommandsGiveTheResult :
    (stateWith .idle [decPorts]).ctrl = .idle ∧ resolve 10 (.value 0x3FF) = .ok 0x3FF ∧
    resolve 8 (.digits [true, false, false, true, false, true, true, true]) = .ok 0x97 := by decide
theorem witness_WaitDoneEndsAfterSixLines : (stateWith .idle [assertReset]).ctrl = .idle := by decide

end Sys2Proof.Tests
end

/-! SUPPORT. The command word read back: what the decoder says of the three fields, and that encoder and decoder undo each
other (30_encoding.md R55 to R60). Then the statements about the unused code 7 (R62; 45_controller.md R134). -/

namespace Sys2Proof.Proofs.Encoding

open Sys2Proof.Machine Sys2Proof.Laws

/-! ### The fields of a command -/

theorem decode_eq_enc {w : CommandWord} (h : modeField w = false) : decode w = .enc (keyField w) (blockField w) := by
  rw [decode, h, Mode.ofBit]

theorem decode_eq_dec {w : CommandWord} (h : modeField w = true) : decode w = .dec (keyField w) (blockField w) := by
  rw [decode, h, Mode.ofBit]

/-- The decoded command has the word's three fields, whichever mode the word names. -/
theorem decode_fields (w : CommandWord) :
    (decode w).mode = Mode.ofBit (modeField w) ∧ (decode w).key = keyField w ∧ (decode w).block = blockField w := by
  cases h : modeField w
  · rw [decode_eq_enc h]; exact ⟨rfl, rfl, rfl⟩
  · rw [decode_eq_dec h]; exact ⟨rfl, rfl, rfl⟩

theorem bit_ofBit (b : Bool) : (Mode.ofBit b).bit = b := by
  cases b <;> rfl

/-! ### Encoder and decoder undo each other -/

theorem encode_eq_commandWord (i : Instr) : encode i = commandWord i.mode i.key i.block := by
  cases i <;> rfl

/-- A word is its three fields put together (30_encoding.md R55, R56). -/
theorem commandWord_fields (w : CommandWord) :
    commandWord (Mode.ofBit (modeField w)) (keyField w) (blockField w) = w := by
  rw [commandWord, bit_ofBit]
  refine BitVec.eq_of_getLsbD_eq fun j hj => ?_
  obtain hb | hk | hm : j < 8 ∨ (8 ≤ j ∧ j < 18) ∨ j = 18 := by omega
  · rw [BitVec.getLsbD_append, if_pos hb, blockField, BitVec.getLsbD_extractLsb']
    simp [hb]
  · have hpos : 8 + (j - 8) = j := by omega
    have hin : j - 8 < 10 := by omega
    rw [BitVec.getLsbD_append, if_neg (by omega), BitVec.getLsbD_append, if_pos hin, keyField,
      BitVec.getLsbD_extractLsb', hpos]
    simp [hin]
  · rw [BitVec.getLsbD_append, if_neg (by omega), BitVec.getLsbD_append, if_neg (by omega), modeField, hm]
    simp

theorem encode_decode (w : CommandWord) : encode (decode w) = w := by
  obtain ⟨hm, hk, hb⟩ := decode_fields w
  rw [encode_eq_commandWord, hm, hk, hb, commandWord_fields]

theorem decode_encode (i : Instr) : decode (encode i) = i := by
  cases i with
  | enc k b =>
    obtain ⟨hm, hk, hb⟩ := Laws.Encoding.enc k b
    rw [decode_eq_enc hm, hk, hb]; rfl
  | dec k b =>
    obtain ⟨hm, hk, hb⟩ := Laws.Encoding.dec k b
    rw [decode_eq_dec hm, hk, hb]; rfl

/-- Settles O3: the decoder is a two-sided inverse of the encoder. -/
theorem everyWordNamesExactlyOneCommand : Obligations.EveryWordNamesExactlyOneCommand :=
  fun w => ⟨encode_decode w, fun i h => by rw [← h, decode_encode]⟩

/-! ### The opcode map (R58) -/

/-- The mask 0x40000 keeps the mode field and clears every other bit. -/
theorem and_opcodeMask (w : CommandWord) : w &&& 0x40000 = if modeField w then 0x40000 else 0x00000 :=
  BitVec.and_twoPow w 18

theorem masked_eq_zero_iff (w : CommandWord) : w &&& 0x40000 = 0x00000 ↔ modeField w = false := by
  rw [and_opcodeMask]
  cases modeField w <;> decide

theorem masked_eq_mask_iff (w : CommandWord) : w &&& 0x40000 = 0x40000 ↔ modeField w = true := by
  rw [and_opcodeMask]
  cases modeField w <;> decide

/-- Settles O4: the two matches of R58 are the two values of the mode field. -/
theorem opcodeMapIsBit18 : Obligations.OpcodeMapIsBit18 := by
  intro w
  rw [masked_eq_zero_iff, masked_eq_mask_iff]
  exact ⟨(Bool.eq_false_or_eq_true _).symm, decode_eq_enc, decode_eq_dec⟩

/-! ### The fields bit by bit (R56) -/

theorem elem_keyField (w : CommandWord) {i : Nat} (h : i < 10) : elem (keyField w) i = w.getLsbD (17 - i) := by
  have hpos : 8 + (10 - 1 - i) = 17 - i := by omega
  have hin : 10 - 1 - i < 10 := by omega
  simp only [elem, keyField, BitVec.getMsbD, BitVec.getLsbD_extractLsb', h, hin, hpos, decide_true, Bool.true_and]

theorem elem_blockField (w : CommandWord) {i : Nat} (h : i < 8) : elem (blockField w) i = w.getLsbD (7 - i) := by
  have hpos : 0 + (8 - 1 - i) = 7 - i := by omega
  have hin : 8 - 1 - i < 8 := by omega
  simp only [elem, blockField, BitVec.getMsbD, BitVec.getLsbD_extractLsb', h, hin, hpos, decide_true, Bool.true_and]

/-- Settles O5: the decoder copies the fields, and element i of a field counts from its most significant bit (R13). -/
theorem commandWordFieldsBitByBit : Obligations.CommandWordFieldsBitByBit := by
  refine ⟨fun w => ?_, decode_presentedWord⟩
  obtain ⟨hm, hk, hb⟩ := decode_fields w
  refine ⟨hm, fun i hi => ?_, fun i hi => ?_⟩
  · rw [hk, elem_keyField w hi]
  · rw [hb, elem_blockField w hi]

/-! ### The unused code 7 (R62, R134) -/

/-- No rule of the controller has code 7 as its target. -/
theorem edge_ctrl_ne_unused7 (p : Ports) (s : State) : (edge p s).ctrl ≠ .unused7 := by
  rcases edge_cases p s with ⟨-, h⟩ | ⟨-, -, -, h⟩ | ⟨-, hidle, -, h⟩ | ⟨-, -, h⟩ | ⟨-, -, h⟩ | ⟨-, -, h⟩ | ⟨-, -, h⟩ |
    ⟨-, -, h⟩ | ⟨-, -, h⟩ | ⟨-, -, h⟩
  case inr.inr.inl => simp [h, hidle]
  all_goals simp [h]

theorem busy_of_unused7 {s : State} (h : s.ctrl = .unused7) : s.busy = true := by
  simp [State.busy, h]

theorem step_of_unused7 {s : State} (hc : s.ctrl = .unused7) (hr : s.portsNow.rst = false) :
    step s = .next s.dropEdge.stepUnused7 := by
  rw [step_eq_edge, edge_unused7 hr (by rw [dropEdge_ctrl, hc])]

theorem exec_of_unused7 (i : Instr) {s : State} (hc : s.ctrl = .unused7) : exec i s = .next s.stepUnused7 := by
  rw [exec_eq_edge, edge_unused7 rfl hc]

/-- Settles O18, from the case list of an edge: none ends in code 7, and code 7 has the one rule R134. -/
theorem unusedCodeIsLeftAndNeverReached : Obligations.UnusedCodeIsLeftAndNeverReached := by
  refine ⟨rfl, fun s t h => ?_, fun _ => busy_of_unused7, fun _ => step_of_unused7, fun i _ => exec_of_unused7 i⟩
  rw [step_eq_edge] at h
  injection h with hedge
  exact hedge ▸ edge_ctrl_ne_unused7 _ _

end Sys2Proof.Proofs.Encoding

/-! SUPPORT. The permutation unit over any checked table: its elements, what it reads, and when one table undoes another
(40_permutation.md R70, R77). Then the statements about P8, IP, IP⁻¹, EP and P4. -/

namespace Sys2Proof.Proofs.Permutation

open Sys2Proof.Machine Sys2Proof.Laws

/-! ### PERM over any checked table (R70) -/

/-- The entry PERM reads for output element i is one of the table's own, not the default past its end. -/
theorem permTable_getD_mem {n l : Nat} (T : PermTable n l) {i : Nat} (h : i < l) :
    T.entries.getD i 0 ∈ T.entries := by
  have hi : i < T.entries.length := by rwa [permTable_length]
  rw [List.getD_eq_getElem _ _ hi]
  exact List.getElem_mem hi

theorem permTable_getD_lt {n l : Nat} (T : PermTable n l) {i : Nat} (h : i < l) : T.entries.getD i 0 < n :=
  permTable_entry_lt T (permTable_getD_mem T h)

/-- PERM reads its input at the table's entries, in their order. -/
theorem elems_perm {n l : Nat} (s : BitVec n) (T : PermTable n l) : elems (perm s T) = T.entries.map (elem s) := by
  refine List.ext_getElem (by simp [elems, permTable_length]) fun i hl hr => ?_
  rw [List.length_map] at hr
  have hi : i < l := by rwa [permTable_length] at hr
  simp only [elems, List.getElem_map, List.getElem_range]
  rw [elem_perm s T hi, List.getD_eq_getElem _ _ hr]

/-- PERM reads no element outside its table. -/
theorem perm_eq_of_agree {n l : Nat} {s t : BitVec n} (T : PermTable n l)
    (h : ∀ e ∈ T.entries, elem s e = elem t e) : perm s T = perm t T :=
  ofElems_congr fun _ hi => h _ (permTable_getD_mem T hi)

/-- Table U undoes table T when T's entry at each of U's entries is the position itself. -/
theorem perm_perm_cancel {n l : Nat} {T : PermTable n l} {U : PermTable l n}
    (h : ∀ i, i < n → T.entries.getD (U.entries.getD i 0) 0 = i) (s : BitVec n) : perm (perm s T) U = s :=
  seq_ext fun i hi => by rw [elem_perm _ U hi, elem_perm s T (permTable_getD_lt U hi), h i hi]

/-- Settles O35: a checked table has l entries, each a position of the input, and PERM reads its input there. -/
theorem permTakesElementsByTheTable : Obligations.PermTakesElementsByTheTable := by
  refine ⟨fun n l s T i hi => ⟨permTable_length T, permTable_getD_lt T hi, elem_perm s T hi⟩, ?_⟩
  rintro ⟨entries, checked⟩ (rfl : entries = [1, 3, 2, 0])
  exact (by decide : perm 0b1011 tableP4 = 0b0111)

/-! ### The subkey selection P8 (R72) -/

/-- The entries of P8 are positions 2 to 9. -/
theorem p8_eq_of_agree_from_two {h h' : BitVec 10} (hag : ∀ i, 2 ≤ i → i < 10 → elem h i = elem h' i) :
    p8 h = p8 h' := by
  have hfrom : ∀ e ∈ tableP8.entries, 2 ≤ e := by decide
  exact perm_eq_of_agree tableP8 fun e he => hag e (hfrom e he) (permTable_entry_lt tableP8 he)

/-- Two sequences that differ in elements 0 and 1 only have the same selection. -/
theorem p8_not_injective : ¬ Function.Injective p8 := by
  intro hinj
  have hag : ∀ i, 2 ≤ i → i < 10 → elem (0b1100000000 : BitVec 10) i = elem (0b0000000000 : BitVec 10) i := by decide
  exact absurd (hinj (p8_eq_of_agree_from_two hag)) (by decide)

/-- Settles O37: P8 never reads elements 0 and 1, so it cannot tell apart sequences that differ there. -/
theorem subkeySelectionP8 : Obligations.SubkeySelectionP8 :=
  ⟨fun h => elems_perm h tableP8, fun _ _ => p8_eq_of_agree_from_two, p8_not_injective, by decide⟩

/-! ### The initial permutation and its inverse (R73, R74, R77) -/

theorem ipInv_ip (b : Block) : ipInv (ip b) = b :=
  perm_perm_cancel (T := tableIP) (U := tableIPinv) (by decide) b

theorem ip_ipInv (p : Block) : ip (ipInv p) = p :=
  perm_perm_cancel (T := tableIPinv) (U := tableIP) (by decide) p

theorem ip_bijective : Function.Bijective ip :=
  Function.bijective_iff_has_inverse.mpr ⟨ipInv, ipInv_ip, ip_ipInv⟩

theorem ipInv_bijective : Function.Bijective ipInv :=
  Function.bijective_iff_has_inverse.mpr ⟨ip, ip_ipInv, ipInv_ip⟩

/-- Settles O38: the two tables undo each other, in both orders. -/
theorem initialPermutationAndItsInverse : Obligations.InitialPermutationAndItsInverse :=
  ⟨fun b => elems_perm b tableIP, fun p => elems_perm p tableIPinv, fun x => ⟨ipInv_ip x, ip_ipInv x⟩,
    ip_bijective, ipInv_bijective, by decide, by decide⟩

/-! ### The expansion EP and the round permutation P4 (R75, R76) -/

/-- EP writes input element 3 to its positions 0 and 6. -/
theorem elem_ep_zero_eq_six (r : HalfBlock) : elem (ep r) 0 = elem (ep r) 6 := by
  rw [ep, elem_perm r tableEP (by decide), elem_perm r tableEP (by decide)]
  rfl

/-- No expansion has unequal elements 0 and 6. -/
theorem ep_not_surjective : ¬ Function.Surjective ep := by
  intro hsurj
  obtain ⟨r, hr⟩ := hsurj 0b10000000
  have heq := elem_ep_zero_eq_six r
  rw [hr] at heq
  exact absurd heq (by decide)

/-- The inverse of P4's table, found by reading R76 backwards; the spec names none. -/
def tableP4inv : PermTable 4 4 := ⟨[3, 0, 2, 1], by decide⟩

theorem p4_bijective : Function.Bijective p4 := by
  have hleft : Function.LeftInverse (perm · tableP4inv) p4 :=
    perm_perm_cancel (T := tableP4) (U := tableP4inv) (by decide)
  have hright : Function.RightInverse (perm · tableP4inv) p4 :=
    perm_perm_cancel (T := tableP4inv) (U := tableP4) (by decide)
  exact Function.bijective_iff_has_inverse.mpr ⟨_, hleft, hright⟩

/-- Settles O39: EP repeats elements, so it misses sequences; P4 has an inverse table. -/
theorem expansionAndRoundPermutation : Obligations.ExpansionAndRoundPermutation :=
  ⟨fun r => elems_perm r tableEP, by decide, ep_not_surjective, fun q => elems_perm q tableP4, p4_bijective,
    by decide, by decide⟩

end Sys2Proof.Proofs.Permutation

/-! SUPPORT. The circular-shift unit of any width: its element list rotated, and its dependence on the amount modulo the
width alone (41_shift.md R80). Then the statements about ROTL and the two half-key rotations (R81, R82). -/

namespace Sys2Proof.Proofs.Shift

open Sys2Proof.Machine Sys2Proof.Laws

/-! ### ROTL of any width and any amount (R80) -/

@[simp] theorem length_elems {n : Nat} (s : BitVec n) : (elems s).length = n := by
  simp [elems]

theorem getElem_elems {n : Nat} (s : BitVec n) {i : Nat} (h : i < (elems s).length) : (elems s)[i] = elem s i := by
  simp [elems]

/-- ROTL is the list rotation of the elements. -/
theorem elems_rotl {n : Nat} (s : BitVec n) (S : Nat) : elems (rotl s S) = (elems s).rotate S := by
  refine List.ext_getElem (by simp) fun i hl _ => ?_
  have hi : i < n := by rwa [length_elems] at hl
  rw [List.getElem_rotate, getElem_elems, getElem_elems, elem_rotl s S hi, length_elems]

/-- The amount counts modulo the width only. -/
theorem rotl_eq_of_modEq {n : Nat} (s : BitVec n) {a b : Nat} (h : a ≡ b [MOD n]) : rotl s a = rotl s b :=
  ofElems_congr fun i _ => congrArg (elem s) (h.add_left i)

theorem rotl_zero {n : Nat} (s : BitVec n) : rotl s 0 = s :=
  seq_ext fun i hi => by rw [elem_rotl s 0 hi, Nat.add_zero, Nat.mod_eq_of_lt hi]

theorem rotl_width_add {n : Nat} (s : BitVec n) (a : Nat) : rotl s (n + a) = rotl s a :=
  rotl_eq_of_modEq s (Nat.add_mod_left n a)

theorem rotl_width {n : Nat} (s : BitVec n) : rotl s n = s :=
  (rotl_width_add s 0).trans (rotl_zero s)

/-- Settles O40: the rotated list is its tail from S mod N followed by its first S mod N elements. -/
theorem rotlIsTheLeftRotation : Obligations.RotlIsTheLeftRotation := by
  refine ⟨fun n s S _ => ⟨?_, fun i => elem_rotl s S, rotl_zero s, rotl_width s, rotl_width_add s 1⟩, by decide⟩
  rw [elems_rotl, List.rotate_eq_drop_append_take_mod, length_elems]

/-! ### The half-key rotations (R81, R82) -/

/-- Settles O41: the list rotation of the five elements, written out for the amounts 1 and 2. -/
theorem halfKeyRotations : Obligations.HalfKeyRotations :=
  ⟨fun h => elems_rotl h 1, fun h => elems_rotl h 2, by decide, by decide, by decide, by decide, by decide, by decide⟩

end Sys2Proof.Proofs.Shift

/-! SUPPORT. The S-box lookup over any checked S-box: its address arithmetic, the shape of the table, and the entry read
(43_sbox.md R95). Then the statement about it. -/

namespace Sys2Proof.Proofs.SBox

open Sys2Proof.Machine Sys2Proof.Laws

/-! ### The row and the column -/

theorem bitNat_lt_two (b : Bool) : bitNat b < 2 := by
  cases b <;> decide

/-- The shift leaves bit 0 free, so the OR of the two bits is their sum. -/
theorem bitNat_shift_or (b c : Bool) : (bitNat b <<< 1) ||| bitNat c = 2 * bitNat b + bitNat c := by
  rw [← Nat.shiftLeft_add_eq_or_of_lt (bitNat_lt_two c), Nat.shiftLeft_eq, pow_one, Nat.mul_comm]

theorem sboxRow_eq (b : BitVec 4) : sboxRow b = 2 * bitNat (elem b 0) + bitNat (elem b 3) :=
  bitNat_shift_or _ _

theorem sboxCol_eq (b : BitVec 4) : sboxCol b = 2 * bitNat (elem b 1) + bitNat (elem b 2) :=
  bitNat_shift_or _ _

theorem sboxRow_lt (b : BitVec 4) : sboxRow b < 4 := by
  have h0 := bitNat_lt_two (elem b 0)
  have h3 := bitNat_lt_two (elem b 3)
  rw [sboxRow_eq]
  omega

theorem sboxCol_lt (b : BitVec 4) : sboxCol b < 4 := by
  have h1 := bitNat_lt_two (elem b 1)
  have h2 := bitNat_lt_two (elem b 2)
  rw [sboxCol_eq]
  omega

/-! ### The entry of a checked S-box -/

/-- A checked S-box has an entry of two bits at every row and column below 4. -/
theorem sboxTable_entry (S : SBoxTable) {i j : Nat} (hi : i < 4) (hj : j < 4) :
    ∃ r v, S.rows[i]? = some r ∧ r[j]? = some v ∧ v < 4 := by
  obtain ⟨hrows, hrow⟩ := (passes_checkSBox S.rows).mp S.checked
  have hi' : i < S.rows.length := by rwa [hrows]
  obtain ⟨hlen, hlt⟩ := hrow _ (List.getElem_mem hi')
  have hj' : j < S.rows[i].length := by rwa [hlen]
  exact ⟨_, _, List.getElem?_eq_getElem hi', List.getElem?_eq_getElem hj', hlt _ (List.getElem_mem hj')⟩

/-- The lookup answers the table's own entry, not the default past its end. -/
theorem sbox_eq_entry {b : BitVec 4} {S : SBoxTable} {r : List Nat} {v : Nat} (hr : S.rows[sboxRow b]? = some r)
    (hv : r[sboxCol b]? = some v) : sbox b S = BitVec.ofNat 2 v := by
  simp only [sbox, List.getD_eq_getElem?_getD, hr, hv, Option.getD_some]

/-- A two-bit value as a sequence, most significant bit first. -/
theorem elem_ofNat_two {v : Nat} (h : v < 4) :
    elem (BitVec.ofNat 2 v) 0 = decide (v / 2 = 1) ∧ elem (BitVec.ofNat 2 v) 1 = decide (v % 2 = 1) := by
  revert v
  decide

/-- Settles O45: row and column stay below 4, where a checked S-box has an entry of two bits, and the lookup answers it. -/
theorem sboxLooksUpRowAndColumn : Obligations.SboxLooksUpRowAndColumn := by
  refine ⟨fun b S => ?_, by decide⟩
  obtain ⟨r, v, hr, hv, hlt⟩ := sboxTable_entry S (sboxRow_lt b) (sboxCol_lt b)
  rw [← sboxRow_eq, ← sboxCol_eq, sbox_eq_entry hr hv]
  exact ⟨r, v, hr, hv, hlt, elem_ofNat_two hlt⟩

end Sys2Proof.Proofs.SBox

/-! SUPPORT. The round function by its stages: the elements of the mixed value and of its two halves (44_feistel.md R106,
R107). Then the statement about all the stages. -/

namespace Sys2Proof.Proofs.Feistel

open Sys2Proof.Machine Sys2Proof.Laws

theorem elems_slice {n : Nat} (s : BitVec n) (a len : Nat) :
    elems (slice s a len) = (List.range len).map fun i => elem s (a + i) :=
  List.map_congr_left fun _ hi => elem_slice s a (List.mem_range.mp hi)

theorem elem_mixSubkey (e : BitVec 8) (sk : Subkey) (i : Nat) : elem (mixSubkey e sk) i = (elem e i ^^ elem sk i) :=
  elem_xor e sk i

/-- A part of the mixed value: each element pairs the half-block's element that EP names with the subkey's own. -/
theorem elems_slice_mixSubkey_ep (r : HalfBlock) (sk : Subkey) {a len : Nat} (h : a + len ≤ 8) :
    elems (slice (mixSubkey (ep r) sk) a len) =
      (List.range len).map fun i => elem r (tableEP.entries.getD (a + i) 0) ^^ elem sk (a + i) := by
  rw [elems_slice]
  refine List.map_congr_left fun i hi => ?_
  have hin : a + i < 8 := by have := List.mem_range.mp hi; omega
  rw [elem_mixSubkey, ep, elem_perm r tableEP hin]

/-- Settles O47: the S-box inputs are the two halves of the mixed value, and P4 reorders the pair of results. -/
theorem roundFunctionStages : Obligations.RoundFunctionStages := by
  refine ⟨fun r sk => ⟨fun i _ => elem_mixSubkey (ep r) sk i, ?_⟩, by decide, by decide, by decide, by decide, by decide⟩
  have hleft := elems_slice_mixSubkey_ep r sk (a := 0) (len := 4) (by decide)
  have hright := elems_slice_mixSubkey_ep r sk (a := 4) (len := 4) (by decide)
  exact ⟨slice (mixSubkey (ep r) sk) 0 4, slice (mixSubkey (ep r) sk) 4 4, sboxPair (mixSubkey (ep r) sk),
    hleft, hright, rfl, rfl, Permutation.elems_perm _ tableP4⟩

end Sys2Proof.Proofs.Feistel

/-! SUPPORT. One step in each controller state, a whole command from the edge after its acceptance (45_controller.md R121 to
R131), and the cipher undone by the opposite mode (R132). Then the statements about the controller's edges, about a command
presented while busy, and about decryption after encryption. -/

namespace Sys2Proof.Proofs.Controller

open Sys2Proof.Machine Sys2Proof.Laws

/-! ### One step (R121) -/

theorem step_of_edge {s t : State} (h : edge s.portsNow s.dropEdge = t) : step s = .next t := by
  rw [step_eq_edge, h]

/-! ### The edges of IDLE (R122, R129) -/

/-- Settles O15: `start` alone tells the two edges of IDLE apart. -/
theorem idleEdges : Obligations.IdleEdges :=
  fun _ hc hr => ⟨fun hs => step_of_edge (edge_accept hr hs hc), fun hs => step_of_edge (edge_hold hr hs hc)⟩

/-! ### The edges of the key schedule (R123, R124) -/

/-- Settles O16: the half-keys and subkeys that the controller's rules name are, by definition, the statement's rotations
and selections. -/
theorem keyScheduleEdges : Obligations.KeyScheduleEdges :=
  fun _ hr => ⟨fun hc => step_of_edge (edge_ks1 hr hc), fun hc => step_of_edge (edge_ks2 hr hc)⟩

/-! ### The edges of the block (R125 to R128) -/

theorem firstSubkey_eq_ite (m : Mode) (k1 k2 : Subkey) : firstSubkey m k1 k2 = if m = .encrypt then k1 else k2 := by
  cases m <;> rfl

theorem secondSubkey_eq_ite (m : Mode) (k1 k2 : Subkey) : secondSubkey m k1 k2 = if m = .encrypt then k2 else k1 := by
  cases m <;> rfl

/-- Settles O17: one rule per state, with the subkey of each round chosen by the mode (R116). -/
theorem blockEdges : Obligations.BlockEdges := by
  intro s hr
  rw [← firstSubkey_eq_ite, ← secondSubkey_eq_ite]
  exact ⟨fun hc => step_of_edge (edge_ips hr hc), fun hc => step_of_edge (edge_rnd1 hr hc),
    fun hc => step_of_edge (edge_rnd2 hr hc), fun hc => step_of_edge (edge_fin hr hc)⟩

/-! ### A command presented while busy (R130) -/

/-- Outside IDLE no port but `rst` is read. -/
theorem edge_eq_of_busy {p q : Ports} {s : State} (hidle : s.ctrl ≠ .idle) (hp : p.rst = false) (hq : q.rst = false) :
    edge p s = edge q s := by
  cases hc : s.ctrl with
  | idle => exact absurd hc hidle
  | ks1 => rw [edge_ks1 hp hc, edge_ks1 hq hc]
  | ks2 => rw [edge_ks2 hp hc, edge_ks2 hq hc]
  | ips => rw [edge_ips hp hc, edge_ips hq hc]
  | rnd1 => rw [edge_rnd1 hp hc, edge_rnd1 hq hc]
  | rnd2 => rw [edge_rnd2 hp hc, edge_rnd2 hq hc]
  | fin => rw [edge_fin hp hc, edge_fin hq hc]
  | unused7 => rw [edge_unused7 hp hc, edge_unused7 hq hc]

theorem step_script_cons (s : State) (p : Ports) (rest : List Ports) :
    step { s with script := p :: rest } = .next (edge p { s with script := rest }) :=
  step_present { s with script := rest } p

/-- Settles O10: a step and a command are each one edge, and outside IDLE the edge reads `rst` alone. -/
theorem commandWhileBusyIsIgnored : Obligations.CommandWhileBusyIsIgnored := by
  intro s p q i rest hidle _ hp hq
  refine ⟨?_, ?_⟩
  · rw [step_script_cons, step_script_cons]
    exact congrArg _ (edge_eq_of_busy hidle hp hq)
  · rw [exec_eq_edge, step_script_cons]
    exact congrArg _ (edge_eq_of_busy hidle rfl hq)

/-! ### A whole command (R131) -/

/-- A run without reset goes on from what its first edge does when `rst = 0`. -/
theorem run_succ_of_edge {n : Nat} {s t : State} (h : noReset (n + 1) s)
    (hedge : s.portsNow.rst = false → edge s.portsNow s.dropEdge = t) : run (n + 1) s = run n t ∧ noReset n t := by
  rw [← hedge (portsNow_reset_of_noReset h)]
  exact ⟨run_succ n s, noReset_next h⟩

/-- From KS1 the six edges without reset do all the work of the command in `MODE_R`, `KEY_R` and `DIN_R`. -/
theorem run_six_of_ks1 {s : State} (hc : s.ctrl = .ks1) (h : noReset 6 s) :
    run 6 s = .next { s.afterCommand s.modeR s.keyR s.dinR with script := s.script.drop 6 } := by
  obtain ⟨hks1, h5⟩ := run_succ_of_edge h (edge_ks1 · hc)
  obtain ⟨hks2, h4⟩ := run_succ_of_edge h5 (edge_ks2 · rfl)
  obtain ⟨hips, h3⟩ := run_succ_of_edge h4 (edge_ips · rfl)
  obtain ⟨hrnd1, h2⟩ := run_succ_of_edge h3 (edge_rnd1 · rfl)
  obtain ⟨hrnd2, h1⟩ := run_succ_of_edge h2 (edge_rnd2 · rfl)
  obtain ⟨hfin, -⟩ := run_succ_of_edge h1 (edge_fin · rfl)
  have hscript : s.script.drop 6 = s.script.tail.tail.tail.tail.tail.tail := by
    simp only [← List.drop_tail, List.drop_zero]
  rw [hks1, hks2, hips, hrnd1, hrnd2, hfin, hscript]
  rfl

/-- A command presented in IDLE is accepted, and six edges without reset later it is done. -/
theorem exec_idle_then_run_six (i : Instr) {s : State} (hc : s.ctrl = .idle) (h : noReset 6 s) :
    exec i s = .next (s.accept i.mode i.key i.block) ∧
    run 6 (s.accept i.mode i.key i.block) =
      .next { s.afterCommand i.mode i.key i.block with script := s.script.drop 6 } := by
  refine ⟨?_, run_six_of_ks1 rfl h⟩
  rw [exec_eq_edge, edge_accept rfl rfl hc]
  rfl

/-- No reset in the first m + n edges leaves none in the n edges after the first m. -/
theorem noReset_of_script_drop {m n : Nat} {s t : State} (h : noReset (m + n) s) (ht : t.script = s.script.drop m) :
    noReset n t := by
  intro p hp
  rw [ht, List.take_drop] at hp
  exact h p (List.mem_of_mem_drop hp)

/-! ### The opposite mode undoes the cipher (R132) -/

/-- The mode that runs the two subkeys in the other order (R116). -/
def oppositeMode : Mode → Mode
  | .encrypt => .decrypt
  | .decrypt => .encrypt

@[simp] theorem firstSubkey_oppositeMode (m : Mode) (k1 k2 : Subkey) :
    firstSubkey (oppositeMode m) k1 k2 = secondSubkey m k1 k2 := by
  cases m <;> rfl

@[simp] theorem secondSubkey_oppositeMode (m : Mode) (k1 k2 : Subkey) :
    secondSubkey (oppositeMode m) k1 k2 = firstSubkey m k1 k2 := by
  cases m <;> rfl

@[simp] theorem splitIP_joinIPinv (h : HalfBlock × HalfBlock) : splitIP (joinIPinv h) = h := by
  rw [splitIP, joinIPinv, Permutation.ip_ipInv]
  exact Prod.ext (slice_append_left h.1 h.2) (slice_append_right h.1 h.2)

@[simp] theorem joinIPinv_splitIP (b : Block) : joinIPinv (splitIP b) = b := by
  have hjoin : (splitIP b).1 ++ (splitIP b).2 = ip b := slice_append_slice (n := 4) (m := 4) (ip b)
  rw [joinIPinv, hjoin, Permutation.ipInv_ip]

/-- The two rounds with the subkeys exchanged undo the two rounds: each round adds the same FK value a second time. -/
theorem rounds_undo_rounds (h : HalfBlock × HalfBlock) (ska skb : Subkey) :
    round2 (round1 (round2 (round1 h ska) skb) skb) ska = h := by
  simp only [round1, round2, BitVec.xor_assoc, BitVec.xor_self, BitVec.xor_zero]

theorem sdes_oppositeMode (b : Block) (k : Key) (m : Mode) : sdes (sdes b k m) k (oppositeMode m) = b := by
  simp only [sdes, splitIP_joinIPinv, firstSubkey_oppositeMode, secondSubkey_oppositeMode, rounds_undo_rounds,
    joinIPinv_splitIP]

theorem sdes_encrypt_bijective (k : Key) : Function.Bijective (fun b => sdes b k .encrypt) :=
  Function.bijective_iff_has_inverse.mpr
    ⟨fun b => sdes b k .decrypt, fun b => sdes_oppositeMode b k .encrypt, fun b => sdes_oppositeMode b k .decrypt⟩

/-- Settles O49: the rounds undone as functions, and on the engine two whole commands one after the other. -/
theorem decryptUndoesEncrypt : Obligations.DecryptUndoesEncrypt := by
  refine ⟨fun k b => ⟨sdes_oppositeMode b k .encrypt, sdes_oppositeMode b k .decrypt⟩, sdes_encrypt_bijective, ?_⟩
  intro s k b hc h
  obtain ⟨hencAccept, hencRun⟩ := exec_idle_then_run_six (.enc k b) hc (noReset_mono h (by decide))
  obtain ⟨hdecAccept, hdecRun⟩ := exec_idle_then_run_six (.dec k (sdes b k .encrypt))
    (s := { s.afterCommand .encrypt k b with script := s.script.drop 6 }) rfl
    (noReset_of_script_drop (m := 6) h rfl)
  exact ⟨_, _, _, _, hencAccept, hencRun, hdecAccept, hdecRun, rfl, sdes_oppositeMode b k .encrypt⟩

end Sys2Proof.Proofs.Controller

/-! SUPPORT. What building a permutation table answers (60_exceptions.md R151 to R153). Then the statement that the tables
are checked before use. -/

namespace Sys2Proof.Proofs.StaticChecks

open Sys2Proof.Machine Sys2Proof.Laws

/-! ### Building a permutation table -/

/-- A table that passes its check is built from its entries as they stand (R153). -/
theorem buildPerm_of_passes {n l : Nat} {raw : List Nat} (h : passes (checkPerm n l raw) = true) :
    buildPerm n l raw = .ok ⟨raw, h⟩ :=
  dif_pos h

theorem buildPerm_of_length_ne {n l : Nat} {raw : List Nat} (h : raw.length ≠ l) :
    buildPerm n l raw = .error .invalidLength := by
  have hfails : ¬ passes (checkPerm n l raw) = true := fun hp => h ((passes_checkPerm n l raw).mp hp).1
  rw [buildPerm, dif_neg hfails, if_pos h]

theorem buildPerm_of_entry_ge {n l : Nat} {raw : List Nat} (hlen : raw.length = l) (h : ∃ e ∈ raw, n ≤ e) :
    buildPerm n l raw = .error .indexOutOfRange := by
  have hfails : ¬ passes (checkPerm n l raw) = true := by
    obtain ⟨e, he, hge⟩ := h
    exact fun hp => absurd (((passes_checkPerm n l raw).mp hp).2 e he) (Nat.not_lt.mpr hge)
  rw [buildPerm, dif_neg hfails, if_neg (not_not_intro hlen)]

/-- A table with these entries is built exactly when they pass the two checks R151 and R152. -/
theorem buildPerm_ok_iff (n l : Nat) (raw : List Nat) :
    (∃ T, buildPerm n l raw = .ok T ∧ T.entries = raw) ↔ raw.length = l ∧ ∀ e ∈ raw, e < n := by
  rw [← passes_checkPerm]
  refine ⟨?_, fun h => ⟨_, buildPerm_of_passes h, rfl⟩⟩
  rintro ⟨T, -, rfl⟩
  exact T.checked

/-- `E_INDEX_OUT_OF_RANGE` names an entry past the input, in a table of the right length only. -/
theorem buildPerm_indexOutOfRange_iff (n l : Nat) (raw : List Nat) :
    buildPerm n l raw = .error .indexOutOfRange ↔ raw.length = l ∧ ∃ e ∈ raw, n ≤ e := by
  refine ⟨fun h => ?_, fun ⟨hlen, hge⟩ => buildPerm_of_entry_ge hlen hge⟩
  have hlen : raw.length = l := by
    by_contra hne
    rw [buildPerm_of_length_ne hne] at h
    cases h
  refine ⟨hlen, ?_⟩
  by_contra hnone
  have hlt : ∀ e ∈ raw, e < n := by simpa using hnone
  rw [buildPerm_of_passes ((passes_checkPerm n l raw).mpr ⟨hlen, hlt⟩)] at h
  cases h

/-- Settles O51: in general what building a table answers, then the six tables counted, then the S-box indices' bounds. -/
theorem tablesAreCheckedBeforeUse : Obligations.TablesAreCheckedBeforeUse := by
  refine ⟨fun n l raw hlen => ⟨?_, ?_⟩, by decide, by decide, by decide, by decide, by decide, by decide,
    fun b => ⟨SBox.sboxRow_lt b, SBox.sboxCol_lt b⟩⟩
  · rw [buildPerm_ok_iff, and_iff_right hlen]
  · rw [buildPerm_indexOutOfRange_iff, and_iff_right hlen]

end Sys2Proof.Proofs.StaticChecks

/-! SUPPORT. What a reset edge leaves (70_reset_and_hazards.md R170), and the engine at rest in IDLE while the host requests
nothing (45_controller.md R129). Then the statements about the reset step and about a command that a reset abandons. -/

namespace Sys2Proof.Proofs.Reset

open Sys2Proof.Machine Sys2Proof.Laws Sys2Proof.Proofs.Controller

/-! ### A reset edge (R170, R171) -/

theorem step_of_reset {s : State} (hr : s.portsNow.rst = true) : step s = .next s.dropEdge.resetStep :=
  step_of_edge (edge_reset hr)

/-- Settles O22: the controller asks for `rst` first, so neither `STATE` nor `start` is read. -/
theorem resetStepWinsAndWritesThreeRegisters : Obligations.ResetStepWinsAndWritesThreeRegisters :=
  fun _ hr => ⟨_, step_of_reset hr, rfl, rfl, rfl, rfl⟩

/-! ### Edges without a request -/

/-- The next of the coming edges is quiet, whether it is listed or past the end of the list. -/
theorem portsNow_of_quiet {n : Nat} {s : State} (h : quiet (n + 1) s) :
    s.portsNow.rst = false ∧ s.portsNow.start = false := by
  cases hs : s.script with
  | nil => simp [State.portsNow, hs, noRequest]
  | cons p ps => simpa [State.portsNow, hs] using h p (by simp [hs])

theorem quiet_dropEdge {n : Nat} {s : State} (h : quiet (n + 1) s) : quiet n s.dropEdge := by
  intro p hp
  rw [dropEdge_script, ← List.drop_one, List.take_drop, Nat.add_comm] at hp
  exact h p (List.mem_of_mem_drop hp)

/-- In IDLE a quiet edge is only taken off the list (R129), so no number of them changes a register. -/
theorem run_of_idle_quiet (n : Nat) {s : State} (hc : s.ctrl = .idle) (h : quiet n s) :
    run n s = .next { s with script := s.script.drop n } := by
  induction n generalizing s with
  | zero => exact run_zero s
  | succ n ih =>
    obtain ⟨hr, hs⟩ := portsNow_of_quiet h
    rw [run_succ, edge_hold (s := s.dropEdge) hr hs hc, ih (s := s.dropEdge) hc (quiet_dropEdge h), dropEdge_script,
      List.drop_tail]
    rfl

/-! ### A command abandoned (R172) -/

theorem run_succ_of_reset (n : Nat) {s : State} (hr : s.portsNow.rst = true) :
    run (n + 1) s = run n s.dropEdge.resetStep := by
  rw [run_succ, edge_reset hr]

/-- Settles O23: the reset edge leads to IDLE with no result, and there the engine rests. -/
theorem resetAbandonsTheCommandInFlight : Obligations.ResetAbandonsTheCommandInFlight := by
  intro s n _ _ hr hquiet
  have hrest := run_of_idle_quiet n (resetStep_ctrl s.dropEdge) hquiet
  exact ⟨_, (run_succ_of_reset n hr).trans hrest, rfl, rfl, rfl⟩

end Sys2Proof.Proofs.Reset

/-! SUPPORT. Encoder and decoder on commands, and a step that presents one (30_encoding.md section 1; log 7). Then the
statements about them, and that nothing stops the machine (60_exceptions.md R150). -/

namespace Sys2Proof.Proofs.Presenting

open Sys2Proof.Machine Sys2Proof.Laws

/-! ### Commands and their words -/

/-- Settles O2: the fields of an encoded command are its mode, key and block, whichever they are. -/
theorem decodeOfEncodeIsTheCommand : Obligations.DecodeOfEncodeIsTheCommand :=
  fun i _ => Encoding.decode_encode i

/-- Settles O1: seven words, evaluated. -/
theorem commandWordsOfTheSpecDecode : Obligations.CommandWordsOfTheSpecDecode := by
  unfold Obligations.CommandWordsOfTheSpecDecode
  decide

/-! ### A step that presents a command -/

theorem portsNow_of_script {s : State} {p : Ports} {rest : List Ports} (h : s.script = p :: rest) :
    s.portsNow = p := by
  rw [State.portsNow, h, List.headD_cons]

theorem dropEdge_of_script {s : State} {p : Ports} {rest : List Ports} (h : s.script = p :: rest) :
    s.dropEdge = { s with script := rest } := by
  rw [State.dropEdge, h, List.tail_cons]

/-- Settles O6: `start = 1` without reset is what makes an edge present its command. -/
theorem stepRunsThePresentedCommand : Obligations.StepRunsThePresentedCommand := by
  intro s p rest hs hr hstart
  have hpresents : presents p = true := by rw [presents, hr, hstart]; rfl
  rw [step, portsNow_of_script hs, dropEdge_of_script hs, clockEdge, if_pos hpresents]

theorem portsOfWord_of_decode {nbits w : Nat} {i : Instr} (h : decodeTableWord nbits w = some i) :
    portsOfWord nbits w = [presenting i.mode i.key i.block] := by
  rw [portsOfWord, h]

/-- Settles O7: the word places the one edge that presents its command. -/
theorem stepRunsThePlacedWord : Obligations.StepRunsThePlacedWord := by
  intro s nbits w i h
  rw [State.withFetchWord, portsOfWord_of_decode h, step_present, exec_eq_edge]

/-! ### Nothing stops the machine (60_exceptions.md R150) -/

theorem run_total (n : Nat) (s : State) : ∃ t, run n s = .next t := by
  induction n generalizing s with
  | zero => exact ⟨s, run_zero s⟩
  | succ n ih => rw [run_succ]; exact ih _

/-- Settles O27: steps and commands are edges, and an edge always answers. -/
theorem nothingStopsTheMachine : Obligations.NothingStopsTheMachine :=
  ⟨fun s => ⟨_, step_eq_edge s⟩, fun i s => ⟨_, exec_eq_edge i s⟩, run_total⟩

end Sys2Proof.Proofs.Presenting

/-! SUPPORT. What an edge writes in each register and what it leaves alone (10_state.md R24, the column `written in
controller state`; R27, R28). Then the statements about steps and commands that follow from it. -/

namespace Sys2Proof.Proofs.Frame

open Sys2Proof.Machine Sys2Proof.Laws

/-! ### The result register and the flag (R27, R28) -/

theorem edge_doneR (p : Ports) (s : State) :
    (edge p s).doneR =
      (if p.rst = true then false
       else if s.ctrl = .fin then true
       else if s.ctrl = .idle ∧ p.start = true then false
       else s.doneR) := by
  rcases edge_cases p s with ⟨hr, h⟩ | ⟨hr, hc, hs, h⟩ | ⟨hr, hc, hs, h⟩ | ⟨hr, hc, h⟩ | ⟨hr, hc, h⟩ | ⟨hr, hc, h⟩ |
    ⟨hr, hc, h⟩ | ⟨hr, hc, h⟩ | ⟨hr, hc, h⟩ | ⟨hr, hc, h⟩
  case inl => simp [h, hr]
  case inr.inl => simp [h, hr, hc, hs]
  case inr.inr.inl => simp [h, hr, hc, hs]
  all_goals simp [h, hr, hc]

theorem edge_doutR (p : Ports) (s : State) :
    (edge p s).doutR =
      (if p.rst = true then 0x00 else if s.ctrl = .fin then joinIPinv (s.lR, s.rR) else s.doutR) := by
  rcases edge_cases p s with ⟨hr, h⟩ | ⟨hr, hc, -, h⟩ | ⟨hr, hc, -, h⟩ | ⟨hr, hc, h⟩ | ⟨hr, hc, h⟩ | ⟨hr, hc, h⟩ |
    ⟨hr, hc, h⟩ | ⟨hr, hc, h⟩ | ⟨hr, hc, h⟩ | ⟨hr, hc, h⟩
  case inl => simp [h, hr]
  all_goals simp [h, hr, hc]

theorem edge_doneR_of_working {p : Ports} {s : State} (hr : p.rst = false) (hidle : s.ctrl ≠ .idle)
    (hfin : s.ctrl ≠ .fin) : (edge p s).doneR = s.doneR := by
  simp [edge_doneR, hr, hidle, hfin]

theorem edge_doutR_of_ne_fin {p : Ports} {s : State} (hr : p.rst = false) (hfin : s.ctrl ≠ .fin) :
    (edge p s).doutR = s.doutR := by
  simp [edge_doutR, hr, hfin]

/-! ### The other registers (R24) -/

/-- Where R24's table names no write of a register, `t` holds what `s` held; `p` are the ports at the edge from `s` to `t`. -/
structure Kept (p : Ports) (s t : State) : Prop where
  command : ¬ (p.rst = false ∧ s.ctrl = .idle ∧ p.start = true) →
    t.modeR = s.modeR ∧ t.keyR = s.keyR ∧ t.dinR = s.dinR
  shifters : ¬ (p.rst = false ∧ (s.ctrl = .ks1 ∨ s.ctrl = .ks2)) → t.kl = s.kl ∧ t.kr = s.kr
  k1R : ¬ (p.rst = false ∧ s.ctrl = .ks1) → t.k1R = s.k1R
  k2R : ¬ (p.rst = false ∧ s.ctrl = .ks2) → t.k2R = s.k2R
  lR : ¬ (p.rst = false ∧ (s.ctrl = .ips ∨ s.ctrl = .rnd1 ∨ s.ctrl = .rnd2)) → t.lR = s.lR
  rR : ¬ (p.rst = false ∧ (s.ctrl = .ips ∨ s.ctrl = .rnd1)) → t.rR = s.rR

theorem edge_kept (p : Ports) (s : State) : Kept p s (edge p s) := by
  rcases edge_cases p s with ⟨-, h⟩ | ⟨hr, hc, hs, h⟩ | ⟨-, -, -, h⟩ | ⟨hr, hc, h⟩ | ⟨hr, hc, h⟩ | ⟨hr, hc, h⟩ |
    ⟨hr, hc, h⟩ | ⟨hr, hc, h⟩ | ⟨-, -, h⟩ | ⟨-, -, h⟩
  case inr.inl => constructor <;> simp [h, hr, hc, hs]
  all_goals constructor <;> simp [*]

/-! ### Steps -/

theorem eq_edge_of_step {s t : State} (h : step s = .next t) : t = edge s.portsNow s.dropEdge := by
  rw [step_eq_edge] at h
  injection h with h
  exact h.symm

theorem step_doneR {s t : State} (h : step s = .next t) :
    t.doneR =
      (if s.portsNow.rst = true then false
       else if s.ctrl = .fin then true
       else if s.ctrl = .idle ∧ s.portsNow.start = true then false
       else s.doneR) := by
  rw [eq_edge_of_step h]
  exact edge_doneR _ s.dropEdge

theorem step_doutR {s t : State} (h : step s = .next t) :
    t.doutR =
      (if s.portsNow.rst = true then 0x00 else if s.ctrl = .fin then joinIPinv (s.lR, s.rR) else s.doutR) := by
  rw [eq_edge_of_step h]
  exact edge_doutR _ s.dropEdge

theorem step_kept {s t : State} (h : step s = .next t) : Kept s.portsNow s t := by
  obtain ⟨hcommand, hshifters, hk1, hk2, hl, hr⟩ := edge_kept s.portsNow s.dropEdge
  rw [eq_edge_of_step h]
  exact ⟨hcommand, hshifters, hk1, hk2, hl, hr⟩

theorem step_script {s t : State} (h : step s = .next t) : t.script = s.script.tail := by
  rw [eq_edge_of_step h, edge_script, dropEdge_script]

theorem busy_iff (s : State) : s.busy = true ↔ s.ctrl ≠ .idle :=
  decide_eq_true_iff

/-- Settles O19: the flag's next value is read off the case list of an edge. -/
theorem doneIsSetInFinAndClearedAtAcceptAndReset : Obligations.DoneIsSetInFinAndClearedAtAcceptAndReset :=
  fun _ t h => ⟨step_doneR h, busy_iff t⟩

/-- Settles O20: the three cases are the three branches of the register's next value. -/
theorem doutIsWrittenOnlyInFinAndAtReset : Obligations.DoutIsWrittenOnlyInFinAndAtReset := by
  intro s t h
  have hdout : t.dout = _ := step_doutR h
  refine ⟨fun hr => ?_, fun hr hfin => ?_, fun hr hfin => ?_⟩
  · rw [hdout, if_pos hr]
  · rw [hdout, if_neg (by simp [hr]), if_pos hfin]; rfl
  · rw [hdout, if_neg (by simp [hr]), if_neg hfin]; rfl

/-- Settles O21: each clause is the converse of a register being kept. -/
theorem registersAreWrittenOnlyInTheirStates : Obligations.RegistersAreWrittenOnlyInTheirStates := by
  intro s t h
  obtain ⟨hcommand, hshifters, hk1, hk2, hl, hr⟩ := step_kept h
  refine ⟨?_, ?_, not_imp_comm.mp hk1, not_imp_comm.mp hk2, not_imp_comm.mp hl, not_imp_comm.mp hr, ?_, ?_,
    step_script h⟩
  · simpa only [not_and_or, ne_eq] using not_imp_comm.mp hcommand
  · simpa only [not_and_or, ne_eq] using not_imp_comm.mp hshifters
  · refine not_imp_comm.mp fun hnot => ?_
    obtain ⟨hrst, hfin⟩ := not_or.mp hnot
    rw [step_doutR h, if_neg hrst, if_neg hfin]
  · refine not_imp_comm.mp fun hnot => ?_
    obtain ⟨hrst, hrest⟩ := not_or.mp hnot
    obtain ⟨hfin, hstart⟩ := not_or.mp hrest
    rw [step_doneR h, if_neg hrst, if_neg hfin, if_neg hstart]

/-! ### Commands -/

theorem eq_edge_of_exec {i : Instr} {s t : State} (h : exec i s = .next t) :
    t = edge (presenting i.mode i.key i.block) s := by
  rw [exec_eq_edge] at h
  injection h with h
  exact h.symm

/-- Settles O11: a presented command is an edge, which keeps what R24's table does not name. -/
theorem commandsFrame : Obligations.CommandsFrame := by
  intro i s t h
  have hkept := edge_kept (presenting i.mode i.key i.block) s
  rw [eq_edge_of_exec h]
  refine ⟨edge_script _ _, fun hc => ?_, fun hc => hkept.command ?_, edge_doutR_of_ne_fin rfl,
    fun hfin hidle => edge_doneR_of_working rfl hidle hfin⟩
  · rw [edge_accept rfl rfl hc]
    exact ⟨rfl, rfl, rfl, rfl, rfl, rfl, rfl⟩
  · rintro ⟨-, hidle, -⟩
    exact hc hidle

end Sys2Proof.Proofs.Frame

/-! SUPPORT. The controller's invariant, one lemma per rule of the controller (45_controller.md R122 to R128), and what it
says along a run. Then the statements about it. -/

namespace Sys2Proof.Proofs.Invariant

open Sys2Proof.Machine Sys2Proof.Laws

/-! ### The datapath, state by state -/

theorem datapath_stepKS1 (s : State) : Datapath s.stepKS1 :=
  show _ ∧ _ ∧ _ from ⟨rfl, rfl, rfl⟩

theorem datapath_stepKS2 {s : State} (hc : s.ctrl = .ks2) (h : Datapath s) : Datapath s.stepKS2 := by
  simp only [Datapath, hc] at h
  obtain ⟨hkl, hkr, hk1⟩ := h
  refine show _ ∧ _ from ⟨hk1, ?_⟩
  rw [stepKS2_k2R, hkl, hkr]
  rfl

theorem datapath_stepIPS {s : State} (hc : s.ctrl = .ips) (h : Datapath s) : Datapath s.stepIPS := by
  simp only [Datapath, hc] at h
  obtain ⟨hk1, hk2⟩ := h
  exact show _ ∧ _ ∧ _ from ⟨hk1, hk2, rfl⟩

theorem datapath_stepRND1 {s : State} (hc : s.ctrl = .rnd1) (h : Datapath s) : Datapath s.stepRND1 := by
  simp only [Datapath, hc] at h
  obtain ⟨hk1, hk2, hsplit⟩ := h
  refine show _ ∧ _ ∧ _ from ⟨hk1, hk2, ?_⟩
  rw [stepRND1_dinR, ← hsplit]
  rfl

/-- Both rounds done, the halves hold what the cipher's last step reads. -/
theorem datapath_stepRND2 {s : State} (hc : s.ctrl = .rnd2) (h : Datapath s) : Datapath s.stepRND2 := by
  simp only [Datapath, hc] at h
  obtain ⟨hk1, hk2, hround⟩ := h
  have hhalves : (s.stepRND2.lR, s.stepRND2.rR) = round2 (s.lR, s.rR) (secondSubkey s.modeR s.k1R s.k2R) := rfl
  refine show joinIPinv (s.stepRND2.lR, s.stepRND2.rR) = _ from ?_
  rw [hhalves, hround, hk1, hk2]
  rfl

theorem joinIPinv_of_datapath_fin {s : State} (hc : s.ctrl = .fin) (h : Datapath s) :
    joinIPinv (s.lR, s.rR) = sdes s.dinR s.keyR s.modeR := by
  simpa only [Datapath, hc] using h

theorem datapath_stepFIN {s : State} (hc : s.ctrl = .fin) (h : Datapath s) : Datapath s.stepFIN :=
  show _ → _ from fun _ => joinIPinv_of_datapath_fin hc h

theorem not_datapath_unused7 {s : State} (hc : s.ctrl = .unused7) : ¬ Datapath s := by
  simp only [Datapath, hc, not_false_eq_true]

/-- In every state but IDLE, an edge without reset takes the datapath's claim to the next state. -/
theorem datapath_edge_of_busy {p : Ports} {s : State} (hr : p.rst = false) (hidle : s.ctrl ≠ .idle) (h : Datapath s) :
    Datapath (edge p s) := by
  cases hc : s.ctrl with
  | idle => exact absurd hc hidle
  | ks1 => rw [edge_ks1 hr hc]; exact datapath_stepKS1 s
  | ks2 => rw [edge_ks2 hr hc]; exact datapath_stepKS2 hc h
  | ips => rw [edge_ips hr hc]; exact datapath_stepIPS hc h
  | rnd1 => rw [edge_rnd1 hr hc]; exact datapath_stepRND1 hc h
  | rnd2 => rw [edge_rnd2 hr hc]; exact datapath_stepRND2 hc h
  | fin => rw [edge_fin hr hc]; exact datapath_stepFIN hc h
  | unused7 => exact absurd h (not_datapath_unused7 hc)

/-! ### The invariant -/

theorem controllerInv_of_idle_undone {s : State} (hc : s.ctrl = .idle) (hd : s.doneR = false) : ControllerInv s := by
  refine ⟨by simp [hc], fun _ => hd, ?_⟩
  simp [Datapath, hc, hd]

/-- Settles O29: reset leads to IDLE with no result claimed. -/
theorem invariantAtReset : Obligations.InvariantAtReset :=
  controllerInv_of_idle_undone rfl rfl

theorem controllerInv_edge (p : Ports) {s : State} (h : ControllerInv s) : ControllerInv (edge p s) := by
  cases hr : p.rst
  case true => rw [edge_reset hr]; exact controllerInv_of_idle_undone rfl rfl
  by_cases hidle : s.ctrl = .idle
  · cases hs : p.start
    · rw [edge_hold hr hs hidle]; exact h
    · rw [edge_accept hr hs hidle]; exact ⟨by simp, fun _ => rfl, trivial⟩
  · obtain ⟨-, hundone, hdata⟩ := h
    refine ⟨Encoding.edge_ctrl_ne_unused7 p s, fun hbusy => ?_, datapath_edge_of_busy hr hidle hdata⟩
    have hfin : s.ctrl ≠ .fin := fun hfin => by
      rw [Frame.busy_iff, edge_fin hr hfin] at hbusy
      exact hbusy rfl
    exact (Frame.edge_doneR_of_working hr hidle hfin).trans (hundone ((Frame.busy_iff s).mpr hidle))

theorem controllerInv_step {s t : State} (h : ControllerInv s) (hstep : step s = .next t) : ControllerInv t := by
  rw [Frame.eq_edge_of_step hstep]
  exact controllerInv_edge s.portsNow (s := s.dropEdge) h

/-- Settles O28: by the rule that matches `STATE`, each establishing what the next state claims. -/
theorem everyStepKeepsTheInvariant : Obligations.EveryStepKeepsTheInvariant :=
  fun _ _ => controllerInv_step

/-! ### Along a run -/

/-- What every step keeps holds at the end of every run. -/
theorem run_induction {P : State → Prop} (hstep : ∀ s t, P s → step s = .next t → P t) {n : Nat} {s t : State}
    (hs : P s) (h : run n s = .next t) : P t := by
  induction n generalizing s with
  | zero => rw [run_zero] at h; injection h with h; exact h ▸ hs
  | succ n ih => rw [run_succ] at h; exact ih (hstep s _ hs (step_eq_edge s)) h

/-- Settles O30: the invariant along the run excludes `done` while busy, and in IDLE it says what `done` means. -/
theorem doneMeansTheResultIsOnDout : Obligations.DoneMeansTheResultIsOnDout := by
  intro n s t hs h hdone
  obtain ⟨-, hundone, hdata⟩ := run_induction (fun _ _ => controllerInv_step) hs h
  have hidle : t.ctrl = .idle := by
    by_contra hc
    rw [hundone ((Frame.busy_iff t).mpr hc)] at hdone
    cases hdone
  simp only [Datapath, hidle] at hdata
  exact ⟨by simp [State.busy, hidle], hdata hdone⟩

end Sys2Proof.Proofs.Invariant

/-! SUPPORT. Runs cut in two, how far a run without reset gets (30_encoding.md R61 numbers the controller states in the
order a command passes them), and whole commands (45_controller.md R131). Then the statements about when a command's result
is on `dout`. -/

namespace Sys2Proof.Proofs.Runs

open Sys2Proof.Machine Sys2Proof.Laws Sys2Proof.Proofs.Controller

/-! ### Runs cut in two -/

theorem run_add {m n : Nat} {s t : State} (h : run m s = .next t) : run (m + n) s = run n t := by
  induction m generalizing s with
  | zero => rw [run_zero] at h; injection h with h; rw [h, Nat.zero_add]
  | succ m ih => rw [run_succ] at h; rw [Nat.add_right_comm, run_succ]; exact ih h

theorem run_script {n : Nat} {s t : State} (h : run n s = .next t) : t.script = s.script.drop n := by
  induction n generalizing s with
  | zero => rw [run_zero] at h; injection h with h; rw [h, List.drop_zero]
  | succ n ih => rw [run_succ] at h; rw [ih h, edge_script, dropEdge_script, List.drop_tail]

/-! ### The place of a state in a command -/

/-- The code of `STATE` as a number (R61): 0 in IDLE, 1 to 6 from KS1 to FIN. -/
def stage (s : State) : Nat := s.ctrl.code.toNat

theorem ctrlState_eq_of_code {c d : CtrlState} (h : c.code.toNat = d.code.toNat) : c = d := by
  revert h
  cases c <;> cases d <;> decide

theorem stage_eq_iff (s : State) (c : CtrlState) : stage s = c.code.toNat ↔ s.ctrl = c :=
  ⟨ctrlState_eq_of_code, fun h => by rw [stage, h]⟩

theorem stage_idle (s : State) : stage s = 0 ↔ s.ctrl = .idle := stage_eq_iff s .idle

theorem stage_fin (s : State) : stage s = 6 ↔ s.ctrl = .fin := stage_eq_iff s .fin

theorem stage_unused7 (s : State) : stage s = 7 ↔ s.ctrl = .unused7 := stage_eq_iff s .unused7

/-- Between acceptance and FIN an edge without reset goes one state on. -/
theorem stage_edge_of_busy {p : Ports} {s : State} (hr : p.rst = false) (hbusy : 0 < stage s) (hfin : stage s < 6) :
    stage (edge p s) = stage s + 1 := by
  cases hc : s.ctrl with
  | idle => exact absurd ((stage_idle s).mpr hc) (by omega)
  | ks1 => rw [edge_ks1 hr hc, stage, stage, hc]; rfl
  | ks2 => rw [edge_ks2 hr hc, stage, stage, hc]; rfl
  | ips => rw [edge_ips hr hc, stage, stage, hc]; rfl
  | rnd1 => rw [edge_rnd1 hr hc, stage, stage, hc]; rfl
  | rnd2 => rw [edge_rnd2 hr hc, stage, stage, hc]; rfl
  | fin => exact absurd ((stage_fin s).mpr hc) (by omega)
  | unused7 => exact absurd ((stage_unused7 s).mpr hc) (by omega)

theorem stage_edge_of_idle {p : Ports} {s : State} (hr : p.rst = false) (hc : s.ctrl = .idle) :
    stage (edge p s) ≤ 1 := by
  cases hs : p.start
  · rw [edge_hold hr hs hc, (stage_idle s).mpr hc]; omega
  · rw [edge_accept hr hs hc]; exact Nat.le_refl 1

theorem stage_edge_le {p : Ports} {s : State} (hr : p.rst = false) (hfin : stage s < 6) :
    stage (edge p s) ≤ stage s + 1 := by
  obtain hidle | hbusy := Nat.eq_zero_or_pos (stage s)
  · have := stage_edge_of_idle hr ((stage_idle s).mp hidle)
    omega
  · exact (stage_edge_of_busy hr hbusy hfin).le

/-! ### How far a run without reset gets -/

/-- A command in flight advances one state per edge, with `done` as it was. -/
theorem run_of_busy (n : Nat) {s : State} (hbusy : 0 < stage s) (hfin : stage s + n ≤ 6) (h : noReset n s) :
    ∃ t, run n s = .next t ∧ stage t = stage s + n ∧ t.doneR = s.doneR := by
  induction n generalizing s with
  | zero => exact ⟨s, run_zero s, rfl, rfl⟩
  | succ n ih =>
    have hr := portsNow_reset_of_noReset h
    have hstage : stage (edge s.portsNow s.dropEdge) = stage s + 1 :=
      stage_edge_of_busy (s := s.dropEdge) hr hbusy (show stage s < 6 by omega)
    have hidle : s.ctrl ≠ .idle := mt (stage_idle s).mpr (by omega)
    have hnotFin : s.ctrl ≠ .fin := mt (stage_fin s).mpr (by omega)
    obtain ⟨t, hrun, hst, hdone⟩ := ih (by omega) (by omega) (noReset_next h)
    rw [Frame.edge_doneR_of_working (s := s.dropEdge) hr hidle hnotFin] at hdone
    exact ⟨t, (run_succ n s).trans hrun, by omega, hdone⟩

/-- No result can come in fewer edges than FIN is away, whatever the host requests. -/
theorem dout_of_run {n : Nat} {s t : State} (hfin : stage s + n ≤ 6) (h : noReset n s) (hrun : run n s = .next t) :
    t.dout = s.dout := by
  induction n generalizing s with
  | zero => rw [run_zero] at hrun; injection hrun with hrun; rw [hrun]
  | succ n ih =>
    have hr := portsNow_reset_of_noReset h
    have hstage : stage (edge s.portsNow s.dropEdge) ≤ stage s + 1 :=
      stage_edge_le (s := s.dropEdge) hr (show stage s < 6 by omega)
    have hnotFin : s.ctrl ≠ .fin := mt (stage_fin s).mpr (by omega)
    rw [run_succ] at hrun
    exact (ih (by omega) (noReset_next h) hrun).trans (Frame.edge_doutR_of_ne_fin (s := s.dropEdge) hr hnotFin)

/-- Settles O33: at stage n the command is in FIN after 6 - n edges, and the edge after those sets `done`. -/
theorem busyEngineFinishesWithinSixEdges : Obligations.BusyEngineFinishesWithinSixEdges := by
  intro s hidle hunused h
  have hpos : stage s ≠ 0 := mt (stage_idle s).mp hidle
  have hle : stage s ≤ 6 := by
    have hlt : stage s < 8 := s.ctrl.code.isLt
    have hne : stage s ≠ 7 := mt (stage_unused7 s).mp hunused
    omega
  obtain ⟨t, hrun, hstage, -⟩ := run_of_busy (6 - stage s) (by omega) (by omega) (noReset_mono h (by omega))
  have hfin : t.ctrl = .fin := (stage_fin t).mp (by omega)
  have hnoReset : noReset 1 t := noReset_of_script_drop (noReset_mono h (by omega)) (run_script hrun)
  have hlast : run (6 - stage s + 1) s = .next t.dropEdge.stepFIN := by
    rw [run_add hrun, run_succ, edge_fin (s := t.dropEdge) (portsNow_reset_of_noReset hnoReset) hfin, run_zero]
  exact ⟨_, _, by omega, show _ ≤ 6 by omega, hlast, rfl, rfl⟩

/-! ### A whole command (R131) -/

/-- The edge that accepts a listed request. -/
theorem run_succ_of_request (n : Nat) {s : State} {p : Ports} {rest : List Ports} (hc : s.ctrl = .idle)
    (hs : s.script = p :: rest) (hr : p.rst = false) (hstart : p.start = true) :
    run (n + 1) s = run n ({ s with script := rest }.accept p.mode p.key p.din) := by
  rw [run_succ, Presenting.portsNow_of_script hs, Presenting.dropEdge_of_script hs,
    edge_accept (s := { s with script := rest }) hr hstart hc]

/-- Seven edges, the first of them accepting, are the command as one atomic step. -/
theorem run_seven_of_request {s : State} {p : Ports} {rest : List Ports} (hc : s.ctrl = .idle)
    (hs : s.script = p :: rest) (hr : p.rst = false) (hstart : p.start = true) (hrest : ∀ q ∈ rest.take 6, q.rst = false) :
    run 7 s = .next { s.afterCommand p.mode p.key p.din with script := rest.drop 6 } := by
  rw [run_succ_of_request 6 hc hs hr hstart, run_six_of_ks1 rfl hrest]
  rfl

/-- At the six edges from the accepting one the command is in flight. -/
theorem run_of_request (j : Nat) {s : State} {p : Ports} {rest : List Ports} (hc : s.ctrl = .idle)
    (hs : s.script = p :: rest) (hr : p.rst = false) (hstart : p.start = true) (hrest : ∀ q ∈ rest.take 6, q.rst = false)
    (hj : j < 6) : ∃ u, run (j + 1) s = .next u ∧ stage u = j + 1 ∧ u.done = false ∧ u.dout = s.dout := by
  have haccepted : stage ({ s with script := rest }.accept p.mode p.key p.din) = 1 := rfl
  have hnoReset : noReset j ({ s with script := rest }.accept p.mode p.key p.din) :=
    noReset_mono (n := 6) hrest (by omega)
  obtain ⟨u, hrun, hstage, hdone⟩ := run_of_busy j (by omega) (by omega) hnoReset
  have hdout := dout_of_run (by omega) hnoReset hrun
  exact ⟨u, (run_succ_of_request j hc hs hr hstart).trans hrun, by omega, hdone, hdout⟩

/-- Settles O12: the codes of the six states number the edges of a command, and its seven edges are one atomic step. -/
theorem transactionRule : Obligations.TransactionRule := by
  intro s p rest hc hs hr hstart hrest
  refine ⟨fun j c hjc => ?_, run_seven_of_request hc hs hr hstart hrest⟩
  obtain ⟨hj, hcode⟩ : j < 6 ∧ c.code.toNat = j + 1 := by
    obtain ⟨hj, rfl⟩ := List.getElem?_eq_some_iff.mp hjc
    exact ⟨hj, by clear hjc; revert j; decide⟩
  obtain ⟨u, hrun, hstage, hdone, hdout⟩ := run_of_request j hc hs hr hstart hrest hj
  have hidle : u.ctrl ≠ .idle := mt (stage_idle u).mpr (by omega)
  exact ⟨u, hrun, (stage_eq_iff u c).mp (by omega), hdone, (Frame.busy_iff u).mpr hidle, hdout⟩

/-- A command presented in IDLE gives its result, whatever the registers held. -/
theorem exec_gives_result (i : Instr) {s : State} (hc : s.ctrl = .idle) (h : noReset 6 s) :
    ∃ t u, exec i s = .next t ∧ run 6 t = .next u ∧
      u.ctrl = .idle ∧ u.busy = false ∧ u.done = true ∧ u.dout = sdes i.block i.key i.mode := by
  obtain ⟨haccept, hrun⟩ := exec_idle_then_run_six i hc h
  exact ⟨_, _, haccept, hrun, rfl, rfl, rfl, rfl⟩

/-- Settles O8: the accepting edge, and the whole command. -/
theorem encIsAcceptedAndGivesItsResult : Obligations.EncIsAcceptedAndGivesItsResult :=
  fun _ k b hc h => ⟨(exec_idle_then_run_six (.enc k b) hc h).1, exec_gives_result (.enc k b) hc h⟩

/-- Settles O9: the accepting edge, and the whole command. -/
theorem decIsAcceptedAndGivesItsResult : Obligations.DecIsAcceptedAndGivesItsResult :=
  fun _ k b hc h => ⟨(exec_idle_then_run_six (.dec k b) hc h).1, exec_gives_result (.dec k b) hc h⟩

/-- Settles O13: both results are the cipher's value for the command. -/
theorem resultDependsOnlyOnTheCommand : Obligations.ResultDependsOnlyOnTheCommand := by
  intro i s s' hc hc' h h'
  obtain ⟨t, u, hexec, hrun, -, -, hdone, hdout⟩ := exec_gives_result i hc h
  obtain ⟨t', u', hexec', hrun', -, -, hdone', hdout'⟩ := exec_gives_result i hc' h'
  exact ⟨t, t', u, u', hexec, hexec', hrun, hrun', hdone, hdone', hdout.trans hdout'.symm⟩

/-! ### Waiting, and starting from reset -/

/-- Settles O32: each quiet edge of IDLE is only taken off the list. -/
theorem resultStaysWhileTheHostWaits : Obligations.ResultStaysWhileTheHostWaits :=
  fun n _ hc h => Reset.run_of_idle_quiet n hc h

/-- Settles O25: the values of R34, read off the reset state. -/
theorem resetValues : Obligations.ResetValues :=
  ⟨rfl, rfl, rfl, rfl⟩

/-- Settles O24: after a reset edge the three registers hold what a reset edge writes. -/
theorem oneResetEdgeIsEnough : Obligations.OneResetEdgeIsEnough :=
  fun _ hr => ⟨_, Reset.step_of_reset hr, rfl, rfl, rfl, fun hr' => Reset.step_of_reset hr'⟩

/-- Settles O26: a reset edge leads to IDLE from every state, and there the command is accepted. -/
theorem bootThenCommand : Obligations.BootThenCommand := by
  intro s i rest r hr hs hrest
  have hports : s.portsNow.rst = true := by rw [Presenting.portsNow_of_script hs, hr]
  have hscript : s.dropEdge.resetStep.script = presenting i.mode i.key i.block :: rest := by
    rw [resetStep_script, dropEdge_script, hs, List.tail_cons]
  have hrun : run 8 s = .next _ :=
    (Reset.run_succ_of_reset 7 hports).trans (run_seven_of_request rfl hscript rfl rfl hrest)
  exact ⟨_, hrun, rfl, rfl, rfl⟩

/-! ### Commands one after the other (20_memory.md R49; 70_reset_and_hazards.md R178) -/

theorem script_of_startHeld {n : Nat} {s : State} (h : startHeld (n + 1) s) :
    s.script = s.portsNow :: s.script.tail ∧ s.portsNow.rst = false ∧ s.portsNow.start = true ∧
    ∀ q ∈ s.script.tail.take n, q.rst = false ∧ q.start = true := by
  obtain ⟨hlen, hall⟩ := h
  cases hs : s.script with
  | nil => rw [hs] at hlen; exact absurd hlen (by simp)
  | cons p rest =>
    rw [hs] at hall
    rw [Presenting.portsNow_of_script hs]
    exact ⟨rfl, (hall p (by simp)).1, (hall p (by simp)).2, fun q hq => hall q (List.mem_cons_of_mem p hq)⟩

theorem startHeld_of_script_drop {m n : Nat} {s t : State} (h : startHeld (m + n) s) (ht : t.script = s.script.drop m) :
    startHeld n t := by
  obtain ⟨hlen, hall⟩ := h
  refine ⟨by rw [ht, List.length_drop]; omega, fun p hp => ?_⟩
  rw [ht, List.take_drop] at hp
  exact hall p (List.mem_of_mem_drop hp)

/-- Settles O34: six edges in flight, the result at the seventh, and in IDLE again `start` is read at the eighth. -/
theorem startHeldHighAcceptsEverySevenEdges : Obligations.StartHeldHighAcceptsEverySevenEdges := by
  intro s hc h
  obtain ⟨hs, hr, hstart, hrest⟩ := script_of_startHeld h
  have hnoReset : ∀ q ∈ s.script.tail.take 6, q.rst = false :=
    fun q hq => (hrest q (List.take_subset_take_left _ (by decide) hq)).1
  refine ⟨fun j hpos hle => ?_, ?_⟩
  · obtain ⟨j, rfl⟩ : ∃ m, j = m + 1 := ⟨j - 1, by omega⟩
    obtain ⟨u, hrun, hstage, -, -⟩ := run_of_request j hc hs hr hstart hnoReset (by omega)
    have hidle : u.ctrl ≠ .idle := mt (stage_idle u).mpr (by omega)
    exact ⟨u, hrun, (Frame.busy_iff u).mpr hidle⟩
  · have hseven := run_seven_of_request hc hs hr hstart hnoReset
    have hscript := run_script hseven
    obtain ⟨hs', hr', hstart', -⟩ := script_of_startHeld (startHeld_of_script_drop (m := 7) (n := 1) h hscript)
    have height := (run_add hseven).trans (run_succ_of_request 0 rfl hs' hr' hstart')
    exact ⟨_, _, hseven, rfl, rfl, rfl, height, rfl, rfl, rfl, rfl, rfl, rfl⟩

/-- The inputs of a command and of the six edges after it. -/
def blockPorts (c : Instr × List Ports) : List Ports := presenting c.1.mode c.1.key c.1.block :: c.2

theorem rst_of_mem_blocks {blocks : List (Instr × List Ports)} (h : ∀ c ∈ blocks, c.2.length = 6 ∧ ∀ p ∈ c.2, p.rst = false) :
    ∀ p ∈ blocks.flatMap blockPorts, p.rst = false := by
  intro p hp
  obtain ⟨c, hc, hpc⟩ := List.mem_flatMap.mp hp
  obtain rfl | hpc := List.mem_cons.mp hpc
  · rfl
  · exact (h c hc).2 p hpc

/-- The first of the listed commands, and what is listed after it. -/
theorem run_seven_of_block {c : Instr × List Ports} {rest : List Ports} {s : State} (hc : s.ctrl = .idle)
    (hlen : c.2.length = 6) (hrst : ∀ p ∈ c.2, p.rst = false) (hs : s.script = blockPorts c ++ rest) :
    ∃ u, run 7 s = .next u ∧ u.ctrl = .idle ∧ u.done = true ∧ u.dout = sdes c.1.block c.1.key c.1.mode ∧
      u.script = rest := by
  have hseven := run_seven_of_request (p := presenting c.1.mode c.1.key c.1.block) hc hs rfl rfl
    (by rwa [List.append_eq, List.take_left' hlen])
  exact ⟨_, hseven, rfl, rfl, rfl, List.drop_left' hlen⟩

/-- Settles O14, by induction on the commands: after seven edges the rest are the commands from an IDLE state. -/
theorem commandsTakeEffectInOrder : Obligations.CommandsTakeEffectInOrder := by
  intro blocks
  induction blocks with
  | nil => intro s _ _ _ j c hj; simp at hj
  | cons first rest ih =>
    intro s hc hall hs j c hj
    obtain ⟨hfirst, hrest⟩ := List.forall_mem_cons.mp hall
    obtain ⟨u, hseven, hidle, hdone, hdout, hscript⟩ := run_seven_of_block hc hfirst.1 hfirst.2 hs
    cases j with
    | zero =>
      obtain rfl : first = c := by simpa using hj
      refine ⟨⟨u, hseven, hidle, hdone, hdout⟩, fun e he => ?_⟩
      obtain ⟨v, hv⟩ := Presenting.run_total e u
      have hnoReset : noReset e u := fun p hp => by
        rw [hscript] at hp
        exact rst_of_mem_blocks hrest p (List.mem_of_mem_take hp)
      have hstage : stage u + e ≤ 6 := by rw [(stage_idle u).mpr hidle]; omega
      exact ⟨v, (run_add hseven).trans hv, (dout_of_run hstage hnoReset hv).trans hdout⟩
    | succ j =>
      have hsplit : 7 * (j + 1 + 1) = 7 + 7 * (j + 1) := by omega
      have hafter := ih u hidle hrest hscript j c (by simpa using hj)
      rw [hsplit, run_add hseven]
      simpa only [Nat.add_assoc, run_add hseven] using hafter

end Sys2Proof.Proofs.Runs

/-! SUPPORT. Two engines that differ in hidden registers only (10_state.md R29): they stay alike along every run, because a
command in flight has determined the registers it will read. Then the statement that no output tells them apart. -/

namespace Sys2Proof.Proofs.Hidden

open Sys2Proof.Machine Sys2Proof.Laws

/-- What no host can tell apart: the same outputs and coming inputs and, while a command is in flight, the same command, with
the datapath of each engine as that command leaves it. In IDLE the hidden registers are free. -/
structure Alike (s s' : State) : Prop where
  ctrl : s.ctrl = s'.ctrl
  doutR : s.doutR = s'.doutR
  doneR : s.doneR = s'.doneR
  script : s.script = s'.script
  command : s.ctrl ≠ .idle → s.modeR = s'.modeR ∧ s.keyR = s'.keyR ∧ s.dinR = s'.dinR
  datapath : s.ctrl ≠ .idle → Datapath s ∧ Datapath s'

theorem outputs_of_alike {s s' : State} (h : Alike s s') : s.outputs = s'.outputs := by
  simp only [State.outputs, State.dout, State.done, State.busy, h.ctrl, h.doutR, h.doneR]

theorem dropEdge_alike {s s' : State} (h : Alike s s') : Alike s.dropEdge s'.dropEdge := by
  obtain ⟨hctrl, hdout, hdone, hscript, hcommand, hdata⟩ := h
  exact ⟨hctrl, hdout, hdone, congrArg List.tail hscript, hcommand, hdata⟩

/-! ### One edge -/

/-- `STATE` and the ports alone decide the next `STATE` (45_controller.md R121). -/
theorem edge_ctrl_congr (p : Ports) {s s' : State} (h : s.ctrl = s'.ctrl) : (edge p s).ctrl = (edge p s').ctrl := by
  rcases edge_cases p s with ⟨hr, he⟩ | ⟨hr, hc, hs, he⟩ | ⟨hr, hc, hs, he⟩ | ⟨hr, hc, he⟩ | ⟨hr, hc, he⟩ |
    ⟨hr, hc, he⟩ | ⟨hr, hc, he⟩ | ⟨hr, hc, he⟩ | ⟨hr, hc, he⟩ | ⟨hr, hc, he⟩
  · rw [he, edge_reset hr]; rfl
  all_goals rw [h] at hc
  · rw [he, edge_accept hr hs hc]; rfl
  · rw [he, edge_hold hr hs hc, h]
  · rw [he, edge_ks1 hr hc]; rfl
  · rw [he, edge_ks2 hr hc]; rfl
  · rw [he, edge_ips hr hc]; rfl
  · rw [he, edge_rnd1 hr hc]; rfl
  · rw [he, edge_rnd2 hr hc]; rfl
  · rw [he, edge_fin hr hc]; rfl
  · rw [he, edge_unused7 hr hc]; rfl

/-- In FIN both engines hold the halves of the one command's result. -/
theorem joinIPinv_of_alike_fin {s s' : State} (h : Alike s s') (hc : s.ctrl = .fin) :
    joinIPinv (s.lR, s.rR) = joinIPinv (s'.lR, s'.rR) := by
  have hbusy : s.ctrl ≠ .idle := by rw [hc]; decide
  obtain ⟨hmode, hkey, hdin⟩ := h.command hbusy
  obtain ⟨hdata, hdata'⟩ := h.datapath hbusy
  rw [Invariant.joinIPinv_of_datapath_fin hc hdata, Invariant.joinIPinv_of_datapath_fin (h.ctrl ▸ hc) hdata',
    hmode, hkey, hdin]

theorem edge_doutR_of_alike (p : Ports) {s s' : State} (h : Alike s s') : (edge p s).doutR = (edge p s').doutR := by
  rw [Frame.edge_doutR, Frame.edge_doutR, ← h.ctrl, ← h.doutR]
  by_cases hc : s.ctrl = .fin
  · rw [joinIPinv_of_alike_fin h hc]
  · rw [if_neg hc, if_neg hc]

theorem edge_doneR_of_alike (p : Ports) {s s' : State} (h : Alike s s') : (edge p s).doneR = (edge p s').doneR := by
  rw [Frame.edge_doneR, Frame.edge_doneR, h.ctrl, h.doneR]

/-- A command is in flight after an edge without reset only, and from IDLE only where it is requested. -/
theorem edge_inFlight {p : Ports} {s : State} (h : (edge p s).ctrl ≠ .idle) :
    p.rst = false ∧ (s.ctrl = .idle → p.start = true) := by
  cases hr : p.rst
  case true => rw [edge_reset hr] at h; exact absurd rfl h
  refine ⟨rfl, fun hc => ?_⟩
  by_contra hs
  rw [edge_hold hr (by simpa using hs) hc] at h
  exact h hc

theorem edge_command_of_busy {p : Ports} {s : State} (hc : s.ctrl ≠ .idle) :
    (edge p s).modeR = s.modeR ∧ (edge p s).keyR = s.keyR ∧ (edge p s).dinR = s.dinR :=
  (Frame.edge_kept p s).command fun h => hc h.2.1

/-- What the edge leaves in flight: the command accepted at it, or the one in flight before with its datapath one rule on. -/
theorem edge_inFlight_alike {p : Ports} {s s' : State} (h : Alike s s') (hflight : (edge p s).ctrl ≠ .idle) :
    ((edge p s).modeR = (edge p s').modeR ∧ (edge p s).keyR = (edge p s').keyR ∧ (edge p s).dinR = (edge p s').dinR) ∧
    Datapath (edge p s) ∧ Datapath (edge p s') := by
  obtain ⟨hr, hstart⟩ := edge_inFlight hflight
  by_cases hc : s.ctrl = .idle
  · rw [edge_accept hr (hstart hc) hc, edge_accept hr (hstart hc) (h.ctrl ▸ hc)]
    exact ⟨⟨rfl, rfl, rfl⟩, trivial, trivial⟩
  · have hc' : s'.ctrl ≠ .idle := h.ctrl ▸ hc
    obtain ⟨hmode, hkey, hdin⟩ := edge_command_of_busy (p := p) hc
    obtain ⟨hmode', hkey', hdin'⟩ := edge_command_of_busy (p := p) hc'
    obtain ⟨hdata, hdata'⟩ := h.datapath hc
    rw [hmode, hkey, hdin, hmode', hkey', hdin']
    exact ⟨h.command hc, Invariant.datapath_edge_of_busy hr hc hdata, Invariant.datapath_edge_of_busy hr hc' hdata'⟩

theorem edge_alike (p : Ports) {s s' : State} (h : Alike s s') : Alike (edge p s) (edge p s') := by
  refine ⟨edge_ctrl_congr p h.ctrl, edge_doutR_of_alike p h, edge_doneR_of_alike p h, ?_,
    fun hflight => (edge_inFlight_alike h hflight).1, fun hflight => (edge_inFlight_alike h hflight).2⟩
  rw [edge_script, edge_script, h.script]

/-! ### Along a run -/

theorem run_alike (n : Nat) {s s' : State} (h : Alike s s') :
    ∃ t t', run n s = .next t ∧ run n s' = .next t' ∧ Alike t t' := by
  induction n generalizing s s' with
  | zero => exact ⟨s, s', run_zero s, run_zero s', h⟩
  | succ n ih =>
    have hports : s.portsNow = s'.portsNow := by rw [State.portsNow, State.portsNow, h.script]
    rw [run_succ, run_succ, ← hports]
    exact ih (edge_alike s.portsNow (dropEdge_alike h))

/-- Settles O31: engines in IDLE with the same outputs are alike, and alike they stay. -/
theorem hiddenRegistersReachNoOutput : Obligations.HiddenRegistersReachNoOutput := by
  intro n s s' hc hc' hdout hdone hscript
  have halike : Alike s s' :=
    ⟨hc.trans hc'.symm, hdout, hdone, hscript, fun hbusy => absurd hc hbusy, fun hbusy => absurd hc hbusy⟩
  obtain ⟨t, t', hrun, hrun', hend⟩ := run_alike n halike
  exact ⟨t, t', hrun, hrun', outputs_of_alike hend⟩

end Sys2Proof.Proofs.Hidden

/-! SUPPORT. The key permutation undone, rotations composed, and the subkeys as selections of key elements
(40_permutation.md R71; 41_shift.md R83; 42_key_schedule.md R86 to R88). Then the statements about the units. -/

namespace Sys2Proof.Proofs.KeySelection

open Sys2Proof.Machine Sys2Proof.Laws

/-! ### The key permutation P10 (R71) -/

/-- The rule's inverse table. -/
def tableP10inv : PermTable 10 10 := ⟨[6, 8, 0, 4, 9, 1, 3, 2, 7, 5], by decide⟩

theorem perm_p10_cancel (k : Key) : perm (p10 k) tableP10inv = k :=
  Permutation.perm_perm_cancel (T := tableP10) (U := tableP10inv) (by decide) k

theorem p10_perm_cancel (k : Key) : p10 (perm k tableP10inv) = k :=
  Permutation.perm_perm_cancel (T := tableP10inv) (U := tableP10) (by decide) k

theorem p10_bijective : Function.Bijective p10 :=
  Function.bijective_iff_has_inverse.mpr ⟨(perm · tableP10inv), perm_p10_cancel, p10_perm_cancel⟩

/-- Settles O36: P10 reads by its table, and the rule's table undoes it on both sides. -/
theorem keyPermutationP10 : Obligations.KeyPermutationP10 := by
  refine ⟨fun k => Permutation.elems_perm k tableP10, p10_bijective, ?_, by decide⟩
  rintro ⟨entries, checked⟩ (rfl : entries = [6, 8, 0, 4, 9, 1, 3, 2, 7, 5]) k
  exact ⟨perm_p10_cancel k, p10_perm_cancel k⟩

/-! ### Rotations composed (R83) -/

theorem rotl_rotl {n : Nat} (s : BitVec n) (a b : Nat) : rotl (rotl s a) b = rotl s (a + b) := by
  refine seq_ext fun i hi => ?_
  have hlt : (i + b) % n < n := Nat.mod_lt _ (by omega)
  rw [elem_rotl _ b hi, elem_rotl s a hlt, elem_rotl s (a + b) hi, Nat.mod_add_mod, Nat.add_assoc, Nat.add_comm b a]

/-- Settles O42: the second rotation reads at the first one's positions, so the amounts add; by 1 and then 2 is by 3. -/
theorem rotationsCompose : Obligations.RotationsCompose := by
  refine ⟨fun _ => rotl_rotl, fun h => ?_⟩
  rw [rotl2, rotl1, rotl_rotl, Shift.elems_rotl]
  rfl

/-! ### The subkeys as selections (R86) -/

/-- The half-keys of the permuted key, each rotated by `a`, put together: what P8 selects a subkey from. -/
def rotatedHalves (k : Key) (a : Nat) : BitVec (5 + 5) := rotl (slice (p10 k) 0 5) a ++ rotl (slice (p10 k) 5 5) a

/-- The element of P10's output that stands at position e after each half is rotated by `a`. -/
def rotatedPosition (a e : Nat) : Nat := if 5 ≤ e then 5 + (e - 5 + a) % 5 else (e + a) % 5

theorem elem_rotatedHalves (k : Key) (a : Nat) {e : Nat} (h : e < 10) :
    elem (rotatedHalves k a) e = elem (p10 k) (rotatedPosition a e) := by
  rw [rotatedHalves, elem_append, rotatedPosition]
  split
  · rw [elem_rotl _ a (by omega), elem_slice _ 5 (Nat.mod_lt _ (by decide))]
  · rw [elem_rotl _ a (by omega), elem_slice _ 0 (Nat.mod_lt _ (by decide)), Nat.zero_add]

theorem rotatedPosition_lt {a e : Nat} : rotatedPosition a e < 10 := by
  rw [rotatedPosition]
  split <;> omega

/-- P8 of the rotated halves reads the key at P10's entries. -/
theorem elems_p8_rotatedHalves (k : Key) (a : Nat) :
    elems (p8 (rotatedHalves k a)) =
      tableP8.entries.map fun e => elem k (tableP10.entries.getD (rotatedPosition a e) 0) := by
  rw [p8, Permutation.elems_perm]
  refine List.map_congr_left fun e he => ?_
  rw [elem_rotatedHalves k a (permTable_entry_lt tableP8 he), p10, elem_perm k tableP10 rotatedPosition_lt]

theorem rotl2_halfKeyL1 (k : Key) : rotl2 (halfKeyL1 k) = rotl (slice (p10 k) 0 5) 3 := rotl_rotl _ 1 2

theorem rotl2_halfKeyR1 (k : Key) : rotl2 (halfKeyR1 k) = rotl (slice (p10 k) 5 5) 3 := rotl_rotl _ 1 2

theorem keySched_fst (k : Key) : (keySched k).1 = p8 (rotatedHalves k 1) := rfl

theorem keySched_snd (k : Key) : (keySched k).2 = p8 (rotatedHalves k 3) := by
  rw [keySched, rotl2_halfKeyL1, rotl2_halfKeyR1]
  rfl

theorem elems_keySched_fst (k : Key) : elems (keySched k).1 =
    [elem k 0, elem k 4, elem k 8, elem k 3, elem k 1, elem k 9, elem k 2, elem k 6] :=
  elems_p8_rotatedHalves k 1

theorem elems_keySched_snd (k : Key) : elems (keySched k).2 =
    [elem k 1, elem k 0, elem k 4, elem k 5, elem k 9, elem k 8, elem k 7, elem k 2] := by
  rw [keySched_snd]
  exact elems_p8_rotatedHalves k 3

/-- From KS1 two edges without reset leave the key schedule's results (R87). -/
theorem run_two_of_ks1 {s : State} (hc : s.ctrl = .ks1) (h : noReset 2 s) :
    run 2 s = .next { s with
      kl := rotl2 (halfKeyL1 s.keyR), kr := rotl2 (halfKeyR1 s.keyR),
      k1R := (keySched s.keyR).1, k2R := (keySched s.keyR).2, ctrl := .ips, script := s.script.drop 2 } := by
  obtain ⟨hks1, h1⟩ := Controller.run_succ_of_edge h (edge_ks1 · hc)
  obtain ⟨hks2, -⟩ := Controller.run_succ_of_edge h1 (edge_ks2 · rfl)
  rw [hks1, hks2, run_zero, ← List.drop_tail, List.drop_one]
  rfl

/-- Settles O43: K1 selects from the halves rotated by 1 and K2 from the halves rotated by 3. -/
theorem subkeysAreKeySelections : Obligations.SubkeysAreKeySelections := by
  refine ⟨fun k => ⟨elems_keySched_fst k, elems_keySched_snd k⟩, fun s hc h => ?_⟩
  rw [← rotl2_halfKeyL1, ← rotl2_halfKeyR1]
  exact run_two_of_ks1 hc h

/-! ### Equal subkeys (R88) -/

theorem elems_injective {n : Nat} : Function.Injective (elems : BitVec n → List Bool) := by
  intro s t h
  refine seq_ext fun i hi => ?_
  exact List.map_inj_left.mp h i (List.mem_range.mpr hi)

theorem elems_ofElems (n : Nat) (f : Nat → Bool) : elems (ofElems n f) = (List.range n).map f :=
  List.map_congr_left fun _ hi => elem_ofElems f (List.mem_range.mp hi)

/-- The key whose elements are constant on each of three classes of positions. -/
def keyOfClasses (a b c : Bool) : Key := ofElems 10 fun i => [a, a, c, b, a, b, c, c, a, a].getD i false

theorem eq_keyOfClasses_iff (k : Key) (a b c : Bool) :
    k = keyOfClasses a b c ↔
      [elem k 0, elem k 1, elem k 2, elem k 3, elem k 4, elem k 5, elem k 6, elem k 7, elem k 8, elem k 9] =
        [a, a, c, b, a, b, c, c, a, a] := by
  rw [← elems_injective.eq_iff, keyOfClasses, elems_ofElems]
  exact Iff.rfl

/-- The eight equations between the two selections tie the key's elements together in three classes. -/
theorem keySched_fst_eq_snd_iff (k : Key) :
    (keySched k).1 = (keySched k).2 ↔ k = keyOfClasses (elem k 0) (elem k 3) (elem k 2) := by
  rw [← elems_injective.eq_iff, elems_keySched_fst, elems_keySched_snd, eq_keyOfClasses_iff]
  simp only [List.cons.injEq, and_true, true_and]
  grind

/-- The keys of R88. -/
def equalSubkeyKeys : List Key :=
  [0b0000000000, 0b0001010000, 0b0010001100, 0b0011011100, 0b1100100011, 0b1101110011, 0b1110101111, 0b1111111111]

theorem keyOfClasses_mem_equalSubkeyKeys : ∀ a b c, keyOfClasses a b c ∈ equalSubkeyKeys := by
  decide

theorem eq_keyOfClasses_of_mem : ∀ k ∈ equalSubkeyKeys, k = keyOfClasses (elem k 0) (elem k 3) (elem k 2) := by
  decide

/-- With equal subkeys the order in which the rounds take them does not matter. -/
theorem sdes_eq_of_equal_subkeys {k : Key} (b : Block) (h : (keySched k).1 = (keySched k).2) :
    sdes b k .encrypt = sdes b k .decrypt := by
  simp only [sdes, firstSubkey, secondSubkey, h]

/-- Settles O44: the eight keys are the values of the three classes. -/
theorem equalSubkeysForExactlyEightKeys : Obligations.EqualSubkeysForExactlyEightKeys := by
  refine ⟨fun k => (keySched_fst_eq_snd_iff k).trans ⟨fun h => ?_, eq_keyOfClasses_of_mem k⟩,
    fun _ => sdes_eq_of_equal_subkeys⟩
  rw [h]
  exact keyOfClasses_mem_equalSubkeyKeys _ _ _

end Sys2Proof.Proofs.KeySelection

/-! SUPPORT. The round function through the mixed value (44_feistel.md R110), and the units' values that the spec writes out
(43_sbox.md; 95_test_vectors.md section 2). -/

namespace Sys2Proof.Proofs.Cipher

open Sys2Proof.Machine Sys2Proof.Laws

/-- Settles O48: after the mixing stage the operands are not read again. -/
theorem roundFunctionReadsOnlyTheMix : Obligations.RoundFunctionReadsOnlyTheMix := by
  intro r r' sk sk' h
  have hmix : mixSubkey (ep r) sk = mixSubkey (ep r') sk' :=
    seq_ext fun i hi => by rw [Feistel.elem_mixSubkey, Feistel.elem_mixSubkey, h i hi]
  rw [fk, fk, hmix]

/-- Settles O46: both tables are literals, and sixteen lookups of each are counted. -/
theorem sboxTablesAndTheirCounts : Obligations.SboxTablesAndTheirCounts :=
  ⟨rfl, rfl, by decide, by decide, by decide, by decide⟩

/-- Settles O50: the steps are the definitions of the key schedule and the cipher, with each round's subkey chosen by the
mode; then nine values, evaluated. -/
theorem cipherFollowsItsSteps : Obligations.CipherFollowsItsSteps := by
  refine ⟨fun b k m => ⟨rfl, ?_⟩, by decide +kernel, by decide +kernel, by decide +kernel, by decide +kernel,
    by decide +kernel, by decide +kernel, by decide +kernel, by decide +kernel, by decide +kernel⟩
  rw [← Controller.firstSubkey_eq_ite, ← Controller.secondSubkey_eq_ite]
  rfl

end Sys2Proof.Proofs.Cipher

/-! SUPPORT. The width checks of an S-box and of a script's operands, and script lines as runs of the machine
(60_exceptions.md R152; 30_encoding.md R63, R64). Then the statements about them. -/

namespace Sys2Proof.Proofs.Scripts

open Sys2Proof.Machine Sys2Proof.Laws

/-! ### Widths refused (R152) -/

/-- `E_INVALID_LENGTH` is asked first, so it names the length alone. -/
theorem buildPerm_invalidLength_iff (n l : Nat) (raw : List Nat) :
    buildPerm n l raw = .error .invalidLength ↔ raw.length ≠ l := by
  refine ⟨fun h hlen => ?_, StaticChecks.buildPerm_of_length_ne⟩
  by_cases hlt : ∀ e ∈ raw, e < n
  · rw [StaticChecks.buildPerm_of_passes ((passes_checkPerm n l raw).mpr ⟨hlen, hlt⟩)] at h
    cases h
  · rw [StaticChecks.buildPerm_of_entry_ge hlen (by simpa using hlt)] at h
    cases h

/-- A refused S-box is always refused by the one name. -/
theorem buildSBox_refused {rows : List (List Nat)} (h : ¬ (rows.length = 4 ∧ ∀ r ∈ rows, r.length = 4 ∧ ∀ v ∈ r, v < 4)) :
    buildSBox rows = .error .invalidLength :=
  dif_neg (mt (passes_checkSBox rows).mp h)

theorem resolve_refused_iff (n : Nat) (l : Literal) : resolve n l = .error .invalidLength ↔ l.wf n = false := by
  cases l with
  | digits ds => by_cases h : ds.length = n <;> simp [resolve, Literal.wf, h]
  | value v => by_cases h : v < 2 ^ n <;> simp [resolve, Literal.wf, h]

theorem resolve_value {n : Nat} (x : BitVec n) : resolve n (.value x.toNat) = .ok x := by
  rw [resolve, if_pos x.isLt, BitVec.ofNat_toNat, BitVec.setWidth_eq]

theorem getD_elems {n : Nat} (x : BitVec n) {i : Nat} (h : i < n) : (elems x).getD i false = elem x i := by
  have hi : i < (elems x).length := by rwa [Shift.length_elems]
  rw [List.getD_eq_getElem _ _ hi, Shift.getElem_elems]

theorem resolve_digits {n : Nat} (x : BitVec n) : resolve n (.digits (elems x)) = .ok x := by
  rw [resolve, if_pos (Shift.length_elems x), ofElems_congr fun _ => getD_elems x, ofElems_elem]

/-- Settles O52: each check fails by `E_INVALID_LENGTH` on the inputs named, and an operand that passes is read whole. -/
theorem wrongWidthsAreRefused : Obligations.WrongWidthsAreRefused := by
  refine ⟨buildPerm_invalidLength_iff, fun rows hshape => buildSBox_refused fun ⟨hlen, hrows⟩ => ?_,
    fun rows hentry => buildSBox_refused fun ⟨_, hrows⟩ => ?_, resolve_refused_iff,
    fun n x => ⟨resolve_value x, resolve_digits x⟩⟩
  · obtain hne | ⟨r, hr, hne⟩ := hshape
    · exact hne hlen
    · exact hne (hrows r hr).1
  · obtain ⟨r, hr, v, hv, hge⟩ := hentry
    exact absurd ((hrows r hr).2 v hv) (Nat.not_lt.mpr hge)

/-! ### The inputs a line leaves free (R63) -/

theorem lineAdmits_nop (p : Ports) : lineAdmits .nop p = true ↔ p.rst = false ∧ p.start = false := by
  simp [lineAdmits]

theorem lineAdmits_rst (p : Ports) : lineAdmits .rst p = true ↔ p.rst = true :=
  Iff.rfl

/-- A line that presents a command admits the values of its ports and no other. -/
theorem linePorts_of_lineAdmits {l : Line} {p : Ports} (hnop : l ≠ .nop) (hrst : l ≠ .rst)
    (h : lineAdmits l p = true) : linePorts l = .ok p := by
  cases hports : linePorts l with
  | ok q => cases l <;> simp_all [lineAdmits]
  | error e => cases l <;> simp_all [lineAdmits]

/-- Without reset and without a request no other port is read. -/
theorem edge_eq_of_no_request {p q : Ports} (s : State) (hp : p.rst = false ∧ p.start = false)
    (hq : q.rst = false ∧ q.start = false) : edge p s = edge q s := by
  by_cases hc : s.ctrl = .idle
  · rw [edge_hold hp.1 hp.2 hc, edge_hold hq.1 hq.2 hc]
  · exact Controller.edge_eq_of_busy hc hp.1 hq.1

theorem edge_eq_of_lineAdmits {l : Line} {p q : Ports} (s : State) (hp : lineAdmits l p = true)
    (hq : lineAdmits l q = true) : edge p s = edge q s := by
  obtain rfl | hnop := eq_or_ne l .nop
  · exact edge_eq_of_no_request s ((lineAdmits_nop p).mp hp) ((lineAdmits_nop q).mp hq)
  obtain rfl | hrst := eq_or_ne l .rst
  · rw [edge_reset ((lineAdmits_rst p).mp hp), edge_reset ((lineAdmits_rst q).mp hq)]
  · have hports : Except.ok p = Except.ok q :=
      (linePorts_of_lineAdmits hnop hrst hp).symm.trans (linePorts_of_lineAdmits hnop hrst hq)
    rw [Except.ok.inj hports]

/-- Settles O53: a step with the line's edge placed is that edge. -/
theorem freeInputsOfALineDoNotMatter : Obligations.FreeInputsOfALineDoNotMatter := by
  intro l p q s hp hq
  rw [step_present, step_present, edge_eq_of_lineAdmits s hp hq]

/-! ### Lines driven one by one (R64) -/

theorem driveEdges_cons (p : Ports) (ps : List Ports) (s : State) : driveEdges (p :: ps) s = driveEdges ps (edge p s) := by
  rw [driveEdges, driveEdge_eq]

/-- The edges that are coming do not matter to an edge. -/
theorem edge_present (p : Ports) (ps : List Ports) (s : State) : edge p (s.present ps) = (edge p s).present ps := by
  rcases edge_cases p s with ⟨hr, h⟩ | ⟨hr, hc, hs, h⟩ | ⟨hr, hc, hs, h⟩ | ⟨hr, hc, h⟩ | ⟨hr, hc, h⟩ | ⟨hr, hc, h⟩ |
    ⟨hr, hc, h⟩ | ⟨hr, hc, h⟩ | ⟨hr, hc, h⟩ | ⟨hr, hc, h⟩
  all_goals rw [h]
  · exact edge_reset hr
  · exact edge_accept hr hs hc
  · exact edge_hold hr hs hc
  · exact edge_ks1 hr hc
  · exact edge_ks2 hr hc
  · exact edge_ips hr hc
  · exact edge_rnd1 hr hc
  · exact edge_rnd2 hr hc
  · exact edge_fin hr hc
  · exact edge_unused7 hr hc

/-- Driving edges is the machine's run with those edges placed before the coming ones. -/
theorem driveEdges_of_run {ps : List Ports} {s t : State} (h : run ps.length (s.present ps) = .next t) :
    driveEdges ps s = .ok t := by
  induction ps generalizing s with
  | nil => injection h with h; rw [driveEdges, ← h]; rfl
  | cons p ps ih =>
    have hfirst : run (ps.length + 1) (s.present (p :: ps)) = run ps.length (edge p (s.present ps)) := run_succ _ _
    rw [List.length_cons, hfirst, edge_present] at h
    rw [driveEdges_cons, ih h]

/-- `NOP 6` after an accepting edge is the rest of the command. -/
theorem runNops_six_of_ks1 {s : State} (hc : s.ctrl = .ks1) :
    runNops 6 s = .ok (s.afterCommand s.modeR s.keyR s.dinR) := by
  have hnoReset : noReset 6 (s.present (List.replicate 6 noRequest)) := fun p hp => by
    have hmem : p ∈ List.replicate 6 noRequest := hp
    rw [List.eq_of_mem_replicate hmem]
    rfl
  exact driveEdges_of_run (Controller.run_six_of_ks1 hc hnoReset)

theorem commandPorts_of_resolve (m : Mode) {lk lb : Literal} {k : Key} {b : Block} (hk : resolve 10 lk = .ok k)
    (hb : resolve 8 lb = .ok b) : commandPorts m lk lb = .ok (presenting m k b) := by
  rw [commandPorts, hk, hb]

theorem runCommandLine_of_idle {l : Line} {m : Mode} {k : Key} {b : Block} {s : State} (hc : s.ctrl = .idle)
    (hl : linePorts l = .ok (presenting m k b)) : runCommandLine l s = .ok (s.afterCommand m k b) := by
  have hline : runLine l s = .ok (s.accept m k b) := by
    simp only [runLine, hl]
    rw [driveEdge_eq, edge_accept rfl rfl hc]
    rfl
  have hnops : runNops 6 (s.accept m k b) = .ok (s.afterCommand m k b) := runNops_six_of_ks1 rfl
  simp only [runCommandLine, hline, hnops]

/-- Settles O54: a pseudo-command is the command's line and six edges, which are the command as one atomic step. -/
theorem pseudoCommandsGiveTheResult : Obligations.PseudoCommandsGiveTheResult := by
  intro bound s lk lb k b hc hk hb
  exact ⟨⟨_, runCommandLine_of_idle (l := .enc lk lb) hc (commandPorts_of_resolve .encrypt hk hb), rfl, rfl, rfl, rfl⟩,
    ⟨_, runCommandLine_of_idle (l := .dec lk lb) hc (commandPorts_of_resolve .decrypt hk hb), rfl, rfl, rfl, rfl⟩⟩

/-! ### Waiting for `done` (R64) -/

theorem waitDone_of_undone {n : Nat} {s t : State} (h : edge noRequest s = t) (hd : t.done = false) :
    waitDone (n + 1) s = waitDone n t := by
  rw [waitDone, driveEdge_eq, h]
  simp [hd]

theorem waitDone_of_done {n : Nat} {s t : State} (h : edge noRequest s = t) (hd : t.done = true) :
    waitDone (n + 1) s = .ok t := by
  rw [waitDone, driveEdge_eq, h]
  simp [hd]

/-- From KS1 the first five lines see no `done`, and lead to FIN. -/
theorem waitDone_add_five_of_ks1 (n : Nat) {s : State} (hc : s.ctrl = .ks1) (hd : s.done = false) :
    waitDone (n + 5) s = waitDone n s.stepKS1.stepKS2.stepIPS.stepRND1.stepRND2 := by
  calc waitDone (n + 5) s
    _ = waitDone (n + 4) s.stepKS1 := waitDone_of_undone (edge_ks1 rfl hc) hd
    _ = waitDone (n + 3) s.stepKS1.stepKS2 := waitDone_of_undone (edge_ks2 rfl rfl) hd
    _ = waitDone (n + 2) s.stepKS1.stepKS2.stepIPS := waitDone_of_undone (edge_ips rfl rfl) hd
    _ = waitDone (n + 1) s.stepKS1.stepKS2.stepIPS.stepRND1 := waitDone_of_undone (edge_rnd1 rfl rfl) hd
    _ = waitDone n s.stepKS1.stepKS2.stepIPS.stepRND1.stepRND2 := waitDone_of_undone (edge_rnd2 rfl rfl) hd

/-- Settles O55: after the five lines the bound 5 is used up, and the sixth line leaves FIN. -/
theorem waitDoneEndsAfterSixLines : Obligations.WaitDoneEndsAfterSixLines := by
  intro i s hc
  have haccept : exec i s = .next (s.accept i.mode i.key i.block) := by
    rw [exec_eq_edge, edge_accept rfl rfl hc]
    rfl
  have hsix := (waitDone_add_five_of_ks1 1 (s := s.accept i.mode i.key i.block) rfl rfl).trans
    (waitDone_of_done (edge_fin rfl rfl) rfl)
  have hfive := waitDone_add_five_of_ks1 0 (s := s.accept i.mode i.key i.block) rfl rfl
  exact ⟨_, _, haccept, hsix, rfl, rfl, rfl, hfive⟩

end Sys2Proof.Proofs.Scripts
